-- ==== Sys2Proof/Word.lean ====
section
/-! DEFINITION. The widths of the Cortex-A715 core: a byte, a 64-bit register word, a 32-bit
instruction word, a register number, and the 128-bit container of one data access. -/

namespace Sys2Proof

/-- The smallest addressable unit (R74). -/
abbrev Byte := BitVec 8

/-- A general-purpose or system register, a virtual address, the program counter (R43, R44). -/
abbrev Word := BitVec 64

/-- One A64 instruction word (R262). -/
abbrev Ins := BitVec 32

/-- A 5-bit register number; 31 is XZR or SP by position (R43). -/
abbrev Reg := BitVec 5

/-- The bytes of one data access, little-endian, of which the low 8n bits are used (R250, R252). -/
abbrev Data := BitVec 128

end Sys2Proof
end

