-- ==== Sys2Proof/Machine/Bits.lean ====
section
/-! DEFINITION. Bit fields and the little-endian byte order (R20, R250). -/

namespace Sys2Proof

/-- Bit `i` of a register (R20). -/
def bit (w : Word) (i : Nat) : Bool := w.getLsbD i

/-- Bits `[lo + len - 1 : lo]` of a register, as a number (R20). -/
def field (w : Word) (lo len : Nat) : Nat := (w.toNat >>> lo) % 2 ^ len

/-- A register with bit `i` set to `b`. -/
def withBit (w : Word) (i : Nat) (b : Bool) : Word :=
  if b then w ||| (1#64 <<< i) else w &&& ~~~(1#64 <<< i)

/-- One flag as a bit of a register word. -/
def flagAt (b : Bool) (i : Nat) : Word := if b then 1#64 <<< i else 0

/-- The `n` bytes of a value, the least significant first (R250). -/
def bytesOf : Nat → Data → List Byte
  | 0, _ => []
  | n + 1, v => v.setWidth 8 :: bytesOf n (v >>> 8)

/-- The value of bytes in little-endian order (R250). -/
def ofBytes : List Byte → Data
  | [] => 0
  | b :: bs => b.setWidth 128 ||| (ofBytes bs <<< 8)

/-- The first `n` bytes of a value, the rest 0: `zext(v[8n-1:0])` (R20). -/
def lowBytes (n : Nat) (v : Data) : Data := (v.setWidth (8 * n)).setWidth 128

end Sys2Proof
end

