-- ==== Sys2Proof/Machine/Types.lean ====
section
/-! DEFINITION. The names and records the machine is built from: system registers, process state,
memory attributes, translation regimes, TLB entries, cache lines, and the events by which agents
outside the core act on it. -/

namespace Sys2Proof

/-- The system registers the spec names, under the names it gives them in lower case (10_state.md
R46 to R71, 60_exceptions.md, 40_system_hint_barrier.md R313 for the twelve data registers); the
Non-secure copies of three registers of the GIC CPU interface (R501); and the event control register
of the trace unit (R566). -/
inductive SysReg where
  | spsr_el1 | elr_el1 | esr_el1 | far_el1 | vbar_el1 | spsr_el2 | elr_el2 | esr_el2 | far_el2
  | vbar_el2 | spsr_el3 | elr_el3 | esr_el3 | far_el3 | vbar_el3 | hpfar_el2 | vsesr_el2
  | vdisr_el2 | disr_el1 | isr_el1 | rvbar_el3 | rmr_el3 | sctlr_el1 | sctlr_el2 | sctlr_el3
  | scr_el3 | hcr_el2 | cpacr_el1 | cptr_el2 | cptr_el3 | mdcr_el2 | mdcr_el3 | zcr_el1 | zcr_el2
  | zcr_el3 | ttbr0_el1 | ttbr1_el1 | tcr_el1 | ttbr0_el2 | ttbr1_el2 | tcr_el2 | ttbr0_el3
  | tcr_el3 | vttbr_el2 | vtcr_el2 | vsttbr_el2 | vstcr_el2 | vncr_el2 | atcr | avtcr
  | contextidr_el1 | mpamidr_el1 | mpam1_el1 | mpam0_el1 | mpam2_el2 | mpam3_el3 | apiakeylo_el1
  | apiakeyhi_el1 | apibkeylo_el1 | apibkeyhi_el1 | sp_el0 | sp_el1 | sp_el2 | spsel | currentel
  | pan | uao | nzcv | daif | dit | ssbs | tco | fpcr | fpsr | midr_el1 | mpidr_el1 | revidr_el1
  | id_aa64pfr0_el1 | id_aa64pfr1_el1 | id_aa64zfr0_el1 | id_aa64dfr0_el1 | id_aa64dfr1_el1
  | id_aa64afr0_el1 | id_aa64afr1_el1 | id_aa64isar0_el1 | id_aa64isar1_el1 | id_aa64isar2_el1
  | id_aa64mmfr0_el1 | id_aa64mmfr1_el1 | id_aa64mmfr2_el1 | ccsidr_el1 | clidr_el1 | csselr_el1
  | ctr_el0 | dczid_el0 | imp_cpupwrctlr_el1 | imp_cpuectlr_el1 | imp_cpuectlr2_el1
  | imp_cpuppmcr_el3 | imp_cpumpmmcr_el3 | ramdata0 | ramdata1 | ramdata2 | ramdata3 | ramdata4
  | ramdata5 | ramdata6 | ramdata7 | ramdata8 | ramdata9 | ramdata10 | ramdata11 | icc_igrpen0_el1
  | icc_igrpen1_el1 | icc_iar0_el1 | icc_iar1_el1 | icc_eoir0_el1 | icc_eoir1_el1 | icc_dir_el1
  | icc_pmr_el1 | icc_bpr0_el1 | icc_bpr1_el1 | icc_ctlr_el1 | icc_ctlr_el3 | icc_sre_el1
  | icc_sre_el2 | icc_sre_el3 | icc_sgi0r_el1 | icc_sgi1r_el1 | icc_asgi1r_el1 | icc_rpr_el1
  | icc_hppir0_el1 | icc_hppir1_el1 | icc_ap0r0_el1 | icc_ap1r0_el1 | ich_hcr_el2 | ich_vtr_el2
  | ich_misr_el2 | ich_eisr_el2 | ich_elrsr_el2 | ich_vmcr_el2 | ich_ap0r0_el2 | ich_ap1r0_el2
  | ich_lr0_el2 | ich_lr1_el2 | ich_lr2_el2 | ich_lr3_el2 | erridr_el1 | errselr_el1 | erxfr_el1
  | erxctlr_el1 | erxstatus_el1 | erxaddr_el1 | erxpfgf_el1 | erxpfgctl_el1 | erxpfgcdn_el1
  | erxmisc0_el1 | erxmisc1_el1 | erxmisc2_el1 | erxmisc3_el1 | cntfrq_el0 | cntpct_el0
  | cntvct_el0 | cntkctl_el1 | cntvoff_el2 | cnthctl_el2 | cntp_tval_el0 | cntp_ctl_el0
  | cntp_cval_el0 | cntv_tval_el0 | cntv_ctl_el0 | cntv_cval_el0 | cnthp_tval_el2 | cnthp_ctl_el2
  | cnthp_cval_el2 | cnthv_tval_el2 | cnthv_ctl_el2 | cnthv_cval_el2 | cntps_tval_el1
  | cntps_ctl_el1 | cntps_cval_el1 | amuserenr_el0 | amcr_el0 | amcfgr_el0 | amcgcr_el0
  | amcntenclr0_el0 | amcntenset0_el0 | amcntenclr1_el0 | amcntenset1_el0 | amevcntr00_el0
  | amevcntr01_el0 | amevcntr02_el0 | amevcntr03_el0 | amevcntr10_el0 | amevcntr11_el0
  | amevcntr12_el0 | amevtyper00_el0 | amevtyper01_el0 | amevtyper02_el0 | amevtyper03_el0
  | amevtyper10_el0 | amevtyper11_el0 | amevtyper12_el0 | pmcr_el0 | pmcntenset_el0
  | pmcntenclr_el0 | pmovsclr_el0 | pmovsset_el0 | pmintenset_el1 | pmintenclr_el1 | pmuserenr_el0
  | pmselr_el0 | pmxevtyper_el0 | pmxevcntr_el0 | pmccntr_el0 | pmccfiltr_el0 | pmevcntr0_el0
  | pmevcntr1_el0 | pmevcntr2_el0 | pmevcntr3_el0 | pmevcntr4_el0 | pmevcntr5_el0 | pmevcntr6_el0
  | pmevcntr7_el0 | pmevcntr8_el0 | pmevcntr9_el0 | pmevcntr10_el0 | pmevcntr11_el0
  | pmevcntr12_el0 | pmevcntr13_el0 | pmevcntr14_el0 | pmevcntr15_el0 | pmevcntr16_el0
  | pmevcntr17_el0 | pmevcntr18_el0 | pmevcntr19_el0 | pmevtyper0_el0 | pmevtyper1_el0
  | pmevtyper2_el0 | pmevtyper3_el0 | pmevtyper4_el0 | pmevtyper5_el0 | pmevtyper6_el0
  | pmevtyper7_el0 | pmevtyper8_el0 | pmevtyper9_el0 | pmevtyper10_el0 | pmevtyper11_el0
  | pmevtyper12_el0 | pmevtyper13_el0 | pmevtyper14_el0 | pmevtyper15_el0 | pmevtyper16_el0
  | pmevtyper17_el0 | pmevtyper18_el0 | pmevtyper19_el0 | dbgbvr0_el1 | dbgbcr0_el1 | dbgbvr1_el1
  | dbgbcr1_el1 | dbgbvr2_el1 | dbgbcr2_el1 | dbgbvr3_el1 | dbgbcr3_el1 | dbgbvr4_el1 | dbgbcr4_el1
  | dbgbvr5_el1 | dbgbcr5_el1 | dbgwvr0_el1 | dbgwcr0_el1 | dbgwvr1_el1 | dbgwcr1_el1 | dbgwvr2_el1
  | dbgwcr2_el1 | dbgwvr3_el1 | dbgwcr3_el1 | mdscr_el1 | oslar_el1 | oslsr_el1 | mdccsr_el0
  | dbgdtr_el0 | dbgdtrx_el0 | trcprgctlr | trcstatr | trblimitr_el1 | trbbaser_el1 | trcextinselr0
  | trcextinselr1 | trcextinselr2 | trcextinselr3 | trccntvr0 | trccntvr1 | pmblimitr_el1
  | pmbptr_el1 | pmsidr_el1 | icc_igrpen1_el1_ns | icc_bpr1_el1_ns | icc_ctlr_el1_ns
  | trceventctl0r
  deriving DecidableEq, Repr, Inhabited

/-- How many system registers there are. -/
abbrev numSysRegs : Nat := 299

/-- The encoding space of MRS and MSR: op0 = 2 + o0, op1, CRn, CRm, op2 (R267). -/
structure SysEnc where
  o0 : BitVec 1
  op1 : BitVec 3
  crn : BitVec 4
  crm : BitVec 4
  op2 : BitVec 3
  deriving DecidableEq, Repr, Inhabited

/-- An Exception level, EL0 to EL3 (R510). -/
abbrev EL := Fin 4

/-- The process state of R45, one field each. -/
structure PState where
  n : Bool
  z : Bool
  c : Bool
  v : Bool
  d : Bool
  a : Bool
  i : Bool
  f : Bool
  el : EL
  sp : Bool
  nRW : Bool
  ss : Bool
  il : Bool
  pan : Bool
  uao : Bool
  dit : Bool
  tco : Bool
  ssbs : Bool
  btype : BitVec 2
  deriving DecidableEq, Repr, Inhabited

/-- Inner or outer cacheability of Normal memory (R167). -/
inductive Cacheability where
  | writeBack
  | writeThrough
  | nonCacheable
  deriving DecidableEq, Repr, Inhabited

/-- The memory types: Device with gathering, reordering and early acknowledgement allowed or not,
and Normal with its two cacheabilities (R167, R170). -/
inductive MemType where
  | device (gathering reordering earlyAck : Bool)
  | normal (inner outer : Cacheability)
  deriving DecidableEq, Repr, Inhabited

/-- The attributes of one access: its type, the allocation and transient hints (R171, R172), its
shareability (R168), and whether the memory holds allocation tags (R9, log entry 58). -/
structure MemAttr where
  type : MemType
  allocate : Bool
  transient : Bool
  shareable : Bool
  tagged : Bool
  deriving DecidableEq, Repr, Inhabited

/-- The seven translation regimes of R147. -/
inductive Regime where
  | el3
  | secureEl2
  | secureEl20
  | nsEl2
  | nsEl20
  | secureEl10
  | nsEl10
  deriving DecidableEq, Repr, Inhabited

/-- What an entry permits, unprivileged (`u`) and privileged (`p`): read, write, execute (R155). -/
structure Perms where
  ur : Bool
  uw : Bool
  ux : Bool
  pr : Bool
  pw : Bool
  px : Bool
  deriving DecidableEq, Repr, Inhabited

/-- A TLB entry (R145, R146): input base and size, output, attributes, permissions, context. -/
structure TlbEntry where
  /-- the virtual address of the block, its low `logSize` bits not used -/
  va : Word
  /-- the output address of the block -/
  pa : BitVec 40
  /-- the output lies in the Non-secure physical address space (R75) -/
  ns : Bool
  /-- log2 of the block size, the `N` of R148 -/
  logSize : Nat
  attr : MemAttr
  /-- stage 1 permissions and the level of its descriptor -/
  perms : Perms
  level : BitVec 2
  /-- stage 2 permissions, its level, and the intermediate address of the block -/
  s2Perms : Perms
  s2Level : BitVec 2
  ipa : BitVec 40
  /-- the page is writable once hardware has marked it dirty (R156) -/
  dbm : Bool
  /-- the page is guarded for branch target identification -/
  guarded : Bool
  regime : Regime
  asid : BitVec 16
  global : Bool
  vmid : BitVec 16
  /-- the stage 1 and stage 2 PBHA bits and their enables, bit by bit (R176, R177) -/
  s1Pbha : BitVec 4
  s1En : BitVec 4
  s2Pbha : BitVec 4
  s2En : BitVec 4
  deriving DecidableEq, Repr, Inhabited

/-- The two RAMs of the L2 TLB: small pages, 6-way, and medium pages, 4-way (R247). -/
inductive TlbRam where
  | tcsp
  | tcmp
  deriving DecidableEq, Repr, Inhabited

/-- A valid entry of the L2 TLB and its place (R144, R247). -/
structure TlbSlot where
  ram : TlbRam
  set : Nat
  way : Nat
  entry : TlbEntry
  deriving DecidableEq, Repr, Inhabited

/-- Why a translation fails (R160, R158, R162 (a)). -/
inductive FaultKind where
  | addressSize
  | translation
  | accessFlag
  | permission
  | externalOnWalk
  | unsupportedUpdate
  deriving DecidableEq, Repr, Inhabited

/-- A failed translation: what the MMU response reports of an abort (R159, R453). -/
structure MmuFault where
  kind : FaultKind
  level : BitVec 2
  stage2 : Bool
  s1ptw : Bool
  ipa : BitVec 40
  deriving DecidableEq, Repr, Inhabited

/-- What an access is for, as the walker and the permission check see it. -/
inductive AccessKind where
  | fetch
  | read
  | write
  deriving DecidableEq, Repr, Inhabited

/-- The update of a descriptor that an access asks of hardware: where it is, whether its memory is
Inner and Outer Write-Back, its new value, whether it marks the page dirty or only accessed, and the
stage, level and intermediate address of the descriptor (R156 to R158). -/
structure DescUpdate where
  pa : BitVec 40
  ns : Bool
  tableWriteBack : Bool
  value : Word
  dirty : Bool
  stage2 : Bool
  level : BitVec 2
  ipa : BitVec 40
  deriving DecidableEq, Repr, Inhabited

/-- What a table walk finds: the entry; log2 of the contiguous block its stage 1 and stage 2
descriptors are part of, 0 where the Contiguous bit is clear (R164); whether the dirty bit modifier
of `entry.dbm` is the stage 2 descriptor's; the 64-byte blocks the descriptors were read from and
whether cacheably (R154, R229); and the updates asked for, of the descriptors of either stage, in
the order of the walk (R156). -/
structure Walk where
  entry : TlbEntry
  contig1 : Nat
  contig2 : Nat
  dbmStage2 : Bool
  reads : List Nat
  cacheable : Bool
  updates : List DescUpdate
  deriving DecidableEq, Repr, Inhabited

/-- The answer of a table walk; `overContiguous` is one that `ArchA64` may end in a Translation
fault because a contiguous block exceeds the input address space (R164). -/
inductive WalkResult where
  | fault (f : MmuFault)
  | found (w : Walk)
  | overContiguous (w : Walk)
  deriving DecidableEq, Repr, Inhabited

/-- The exclusive monitor (R370, R372): the tag is bits [39:6] of the physical address and the
physical address space. -/
inductive Monitor where
  | opened
  | exclusive (tag : BitVec 34) (ns : Bool)
  deriving DecidableEq, Repr, Inhabited

/-- `core.lowpower` (R86). -/
inductive LowPower where
  | running
  | wfi
  | wfe
  deriving DecidableEq, Repr, Inhabited

/-- `core.power_mode` (R86). -/
inductive PowerMode where
  | on
  | off
  | offEmulated
  | fullRetention
  | debugRecovery
  | warmReset
  deriving DecidableEq, Repr, Inhabited

/-- The MESI state of a valid line (R200). -/
inductive Mesi where
  | modified
  | exclusive
  | shared
  deriving DecidableEq, Repr, Inhabited

/-- A valid line of the L1 data cache or the L2 cache. `block` is the 64-byte block of the memory
key space it holds; a Modified line keeps in `below` the 64 bytes that memory held below it;
`transient` is the hint it was allocated with (R172). -/
structure CacheLine where
  block : Nat
  set : Nat
  way : Nat
  mesi : Mesi
  below : List Byte
  transient : Bool
  deriving DecidableEq, Repr, Inhabited

/-- A valid line of the L1 instruction cache (R79). -/
structure InsLine where
  block : Nat
  set : Nat
  way : Nat
  deriving DecidableEq, Repr, Inhabited

/-- An instruction word older than memory's that a fetch may still see (R182, R192): `held` by the
instruction cache, `invalidated` there but not yet behind an ISB, or `below` a line that another
core holds dirty; `unclean` where a store of this core replaced the word, or its line has gone dirty
to another agent, and no software has cleaned its block since. -/
structure OldWord where
  key : Nat
  word : BitVec 32
  held : Bool
  invalidated : Bool
  below : Bool
  unclean : Bool
  deriving DecidableEq, Repr, Inhabited

/-- The group of an interrupt (R503). -/
inductive IntGroup where
  | group0
  | group1Secure
  | group1NonSecure
  deriving DecidableEq, Repr, Inhabited

/-- An interrupt forwarded to the CPU interface; `dropped` says its priority has been dropped
without deactivation (R479). -/
structure GicInt where
  id : BitVec 24
  group : IntGroup
  prio : Byte
  dropped : Bool
  deriving DecidableEq, Repr, Inhabited

/-- The kinds of memory error (R488, R490). -/
inductive ErrorKind where
  | corrected
  | deferred
  | uncorrected
  | uncontainable
  deriving DecidableEq, Repr, Inhabited

/-- The protected RAMs (R480 (a), (b)). -/
inductive RamKind where
  | l1dTag
  | l1dData
  | l2Tag
  | l2Data
  | l2Tq
  | l1iTag
  | l1iData
  | mmu
  deriving DecidableEq, Repr, Inhabited

/-- A data access of the core in program order, with its ordering marks (R253), and what the rules
for exclusive pairs count as standing between two of them (R379). The record is the model's own;
the memory model between agents is a parameter of the spec. -/
inductive MemEvent where
  | read (key size : Nat) (acquire : Bool)
  | write (key size : Nat) (release : Bool)
  | update (key size : Nat) (acquire release : Bool)
  /-- a Load-Exclusive, with the attributes of its memory -/
  | exclusiveRead (key size : Nat) (acquire : Bool) (attr : MemAttr)
  /-- WFI or WFE waited for every earlier access to complete (R302) -/
  | completed
  /-- an error synchronisation barrier (R310) -/
  | errorSync
  /-- a prefetch, a maintenance operation, a write of a system register or by `SYS`, or an
  exception (R379) -/
  | disturbance
  deriving DecidableEq, Repr, Inhabited

/-- The instruction set states that a return address may have: A64 is the only one (R3, R346). -/
inductive InsSet where
  | a64
  deriving DecidableEq, Repr, Inhabited

/-- An entry of the return stack: an address and its instruction set state (R84, R346). -/
structure ReturnEntry where
  address : Word
  isa : InsSet
  deriving DecidableEq, Repr, Inhabited

/-- What the program flow prediction has learned (R84, R344): the targets of executed branches by
their addresses (the Branch Target Buffer), whether the latest branches were taken, the latest first
(the history), and the targets of indirect branches. The static predictor has no state. It has no
bound and nothing reads it but prediction, which changes no result (R347; log entry 66). -/
structure Predictor where
  btb : List (Word × Word)
  history : List Bool
  indirect : List (Word × Word)
  deriving DecidableEq, Repr, Inhabited

/-- A resource of the trace unit that an event register may select (R563, R566): an extended input,
a counter at zero, a comparator. -/
inductive TraceResource where
  | none
  | input (i : Fin 4)
  | counter (second : Bool)
  | comparator (i : Fin 8)
  deriving DecidableEq, Repr, Inhabited

/-- P0 elements of the trace unit: executed branches and exceptions (R560). -/
inductive TraceElem where
  | branch (source target : Word)
  | exception (target : EL) (ret : Word)
  deriving DecidableEq, Repr, Inhabited

/-- A micro-operation identified as a sample, with its 32-bit events packet and its 8-bit data
source packet (R15, R569). -/
structure SpeSample where
  pc : Word
  events : BitVec 32
  source : Byte
  deriving DecidableEq, Repr, Inhabited

/-- What a broadcast TLB maintenance operation names (R526). -/
inductive TlbiScope where
  | all
  | regime (r : Regime)
  | vmid (v : BitVec 16)
  | asid (a : BitVec 16)
  | va (va : Word) (asid : Option (BitVec 16))
  deriving DecidableEq, Repr, Inhabited

/-- A register of the debug APB interface: a register that is also a System register (R557), the
debug status and control register, the two ends of the Debug Communications Channel, or the PMU
snapshot registers (R530, R536, R551, R555). -/
inductive ApbReg where
  | system (r : SysReg)
  | edscr
  | dtrrx
  | dtrtx
  | osLock
  | snapshot (i : Nat)
  deriving DecidableEq, Repr, Inhabited

/-- What a debugger alters of a halted core (R555); memory it alters as any other agent does. -/
inductive DebugWrite where
  | general (r : BitVec 5) (v : Word)
  | stackPointer (i : Fin 4) (v : Word)
  | pc (v : Word)
  | pstate (p : PState)
  | vector (i : Fin 32) (v : BitVec 128)
  | predicate (i : Fin 16) (v : BitVec 16)
  | ffr (v : BitVec 16)
  | system (r : SysReg) (v : Word)
  deriving DecidableEq, Repr, Inhabited

/-- What an agent outside the core, or a unit of the core that acts on no instruction's behalf, does
between two instructions (R40, R41, D25). -/
inductive EnvEvent where
  /-- the interrupt pins nIRQ, nFIQ, nVIRQ, nVFIQ, as asserted or not (R470) -/
  | pins (irq fiq virq vfiq : Bool)
  /-- the Distributor forwards an interrupt to the CPU interface (R501) -/
  | gicForward (int : GicInt)
  /-- the output of the timer with this control register, while asserted, arrives as a PPI (R508) -/
  | timerInterrupt (timer : SysReg) (int : GicInt)
  /-- a physical SError becomes pending; what its syndrome leaves open is given (R461) -/
  | serror (iss : BitVec 25)
  /-- SEV on any core (R307) -/
  | event
  /-- the event stream of the Generic Timer (R508) -/
  | eventStream
  /-- the system counter advances (R508) -/
  | counter (by_ : Nat)
  /-- micro-operations are dispatched, as the SPE down-counter sees them (R92) -/
  | dispatched (uops : Nat)
  /-- the SPE writes its sample to its buffer, at a virtual address (R569) -/
  | speWrite (va : Word) (bytes : List Byte)
  /-- the TRBE writes the packets of the first elements it has accepted to its buffer, at a virtual
  address; the packet format is not in the spec, so the bytes are any (R567) -/
  | trbeWrite (va : Word) (elems : Nat) (bytes : List Byte)
  /-- another agent writes bytes at a key of the memory (R376, R526) -/
  | remoteWrite (key : Nat) (bytes : List Byte)
  /-- software of another core cleans a line that core held dirty (R182, R192) -/
  | remoteClean (block : Nat)
  /-- another agent sets the allocation tag of a 16-byte granule (log entry 58) -/
  | tagWrite (granule : Nat) (tag : Byte)
  /-- a snoop takes a block, invalidating it here or leaving it Shared (R306, R200) -/
  | snoop (block : Nat) (invalidate : Bool)
  /-- a broadcast TLB maintenance operation is served (R306, R526) -/
  | tlbMaintenance (scope : TlbiScope)
  /-- a broadcast instruction cache maintenance operation is served: one block or all -/
  | icacheMaintenance (block : Option Nat)
  /-- the core itself translates and reads ahead: a wrong-path fetch, a hardware data prefetch, the
  translation table prefetcher (R144, R184, R220, R347) -/
  | speculate (va : Word) (fetch : Bool)
  /-- a utility-bus read or write at an absolute physical address (R520 to R523, D25) -/
  | utilityRead (address : BitVec 40) (rightState : Bool)
  | utilityWrite (address : BitVec 40) (rightState : Bool) (value : Word)
  /-- a GIC access over APB (R306, R506) -/
  | gicAccess
  /-- a debug access over APB (R306, R557) -/
  | apbRead (reg : ApbReg)
  | apbWrite (reg : ApbReg) (value : Word)
  /-- the PMU takes a snapshot (R530) -/
  | pmuSnapshot
  /-- the debugger asks for a halt, alters the halted core, restarts it (R555) -/
  | debugHalt
  | debugAlter (w : DebugWrite)
  | debugRestart
  /-- the accesses that held the clock on are over -/
  | clockQuiet
  /-- the retention timer expires (R573) -/
  | retentionTimer
  /-- the PPU requests a power mode (R571, R576) -/
  | ppu (mode : PowerMode)
  /-- the Cold reset signal (R600) -/
  | coldReset
  /-- the Warm reset signal (R602) -/
  | warmReset
  /-- bits flip in one protection granule of a RAM, at a block; `data` is what it then holds (R481,
  R495) -/
  | ramError (ram : RamKind) (bits : Nat) (block : Nat) (data : List Byte)
  /-- clock cycles pass for the error-injection countdown (R489) -/
  | injectionClock (cycles : Nat)
  /-- the trace FIFO drains, to the trace bus or to the TRBE (R561, R562, R567) -/
  | traceDrain
  /-- the dispatch-block pin (R587) -/
  | dispatchBlock (asserted : Bool)
  /-- the MPMM gear, its count of high-activity events, and the PDP level (R585, R586) -/
  | throttle (gear : Fin 3) (activity : Nat) (pdp : Fin 3)
  deriving DecidableEq, Repr, Inhabited

/-- The answer of the core on the utility bus or the debug APB (R523, R524, R556, R577). -/
inductive BusReply where
  | none
  | data (v : Word)
  | written
  | unavailable
  | locked
  deriving DecidableEq, Repr, Inhabited

end Sys2Proof
end

