-- ==== Sys2Proof/Syntax.lean ====
section
/-! DEFINITION. The instructions of spec/opcode_table.json, one constructor per row, in the table's
order, and functions that name the constructors of one shape by their operation and size. A function
that builds instructions is marked noncomputable for one reason only: Lean's code generator cannot
build a value of a type of more than 244 constructors. The kernel evaluates it as any other. -/

namespace Sys2Proof

/-- An A64 instruction of the table. Register operands are 5-bit numbers; `W` and `X` at the end of
a name are the table's variants of one mnemonic. -/
inductive Instr where
  -- hints (R264)
  | wfe
  | wfi
  | esb
  -- barriers (R265)
  | clrex (crm : BitVec 4)
  | isb (crm : BitVec 4)
  -- system instructions (R266, R273)
  | ramindex (rt : Reg)
  | dcZva (rt : Reg)
  | dcCisw (rt : Reg)
  | dcIvac (rt : Reg)
  | sys (op1 : BitVec 3) (crn crm : BitVec 4) (op2 : BitVec 3) (rt : Reg)
  -- system register moves (R267)
  | mrs (rt : Reg) (e : SysEnc)
  | msr (e : SysEnc) (rt : Reg)
  -- branches (R268, R269)
  | bl (imm26 : BitVec 26)
  | blr (rn : Reg)
  | blraaz (rn : Reg)
  | blrabz (rn : Reg)
  | blraa (rn rm : Reg)
  | blrab (rn rm : Reg)
  | ret (rn : Reg)
  | retaa
  | retab
  | eret
  | eretaa
  | eretab
  -- exclusives, compare and swap (R270)
  | ldxrb (rt rn : Reg)
  | ldxrh (rt rn : Reg)
  | ldxrW (rt rn : Reg)
  | ldxrX (rt rn : Reg)
  | ldxpW (rt rt2 rn : Reg)
  | ldxpX (rt rt2 rn : Reg)
  | ldaxrb (rt rn : Reg)
  | ldaxrh (rt rn : Reg)
  | ldaxrW (rt rn : Reg)
  | ldaxrX (rt rn : Reg)
  | ldaxpW (rt rt2 rn : Reg)
  | ldaxpX (rt rt2 rn : Reg)
  | stxrb (rs rt rn : Reg)
  | stxrh (rs rt rn : Reg)
  | stxrW (rs rt rn : Reg)
  | stxrX (rs rt rn : Reg)
  | stxpW (rs rt rt2 rn : Reg)
  | stxpX (rs rt rt2 rn : Reg)
  | stlxrb (rs rt rn : Reg)
  | stlxrh (rs rt rn : Reg)
  | stlxrW (rs rt rn : Reg)
  | stlxrX (rs rt rn : Reg)
  | stlxpW (rs rt rt2 rn : Reg)
  | stlxpX (rs rt rt2 rn : Reg)
  | casW (rs rt rn : Reg)
  | caslW (rs rt rn : Reg)
  | casaW (rs rt rn : Reg)
  | casalW (rs rt rn : Reg)
  | casX (rs rt rn : Reg)
  | caslX (rs rt rn : Reg)
  | casaX (rs rt rn : Reg)
  | casalX (rs rt rn : Reg)
  | casb (rs rt rn : Reg)
  | caslb (rs rt rn : Reg)
  | casab (rs rt rn : Reg)
  | casalb (rs rt rn : Reg)
  | cash (rs rt rn : Reg)
  | caslh (rs rt rn : Reg)
  | casah (rs rt rn : Reg)
  | casalh (rs rt rn : Reg)
  | caspW (rs rt rn : Reg)
  | casplW (rs rt rn : Reg)
  | caspaW (rs rt rn : Reg)
  | caspalW (rs rt rn : Reg)
  | caspX (rs rt rn : Reg)
  | casplX (rs rt rn : Reg)
  | caspaX (rs rt rn : Reg)
  | caspalX (rs rt rn : Reg)
  -- atomic memory operations (R271); `st` forms are the aliases of R278 (b)
  | staddb (rs rn : Reg)
  | staddh (rs rn : Reg)
  | staddW (rs rn : Reg)
  | staddX (rs rn : Reg)
  | staddlb (rs rn : Reg)
  | staddlh (rs rn : Reg)
  | staddlW (rs rn : Reg)
  | staddlX (rs rn : Reg)
  | stclrb (rs rn : Reg)
  | stclrh (rs rn : Reg)
  | stclrW (rs rn : Reg)
  | stclrX (rs rn : Reg)
  | stclrlb (rs rn : Reg)
  | stclrlh (rs rn : Reg)
  | stclrlW (rs rn : Reg)
  | stclrlX (rs rn : Reg)
  | steorb (rs rn : Reg)
  | steorh (rs rn : Reg)
  | steorW (rs rn : Reg)
  | steorX (rs rn : Reg)
  | steorlb (rs rn : Reg)
  | steorlh (rs rn : Reg)
  | steorlW (rs rn : Reg)
  | steorlX (rs rn : Reg)
  | stsetb (rs rn : Reg)
  | stseth (rs rn : Reg)
  | stsetW (rs rn : Reg)
  | stsetX (rs rn : Reg)
  | stsetlb (rs rn : Reg)
  | stsetlh (rs rn : Reg)
  | stsetlW (rs rn : Reg)
  | stsetlX (rs rn : Reg)
  | stsmaxb (rs rn : Reg)
  | stsmaxh (rs rn : Reg)
  | stsmaxW (rs rn : Reg)
  | stsmaxX (rs rn : Reg)
  | stsmaxlb (rs rn : Reg)
  | stsmaxlh (rs rn : Reg)
  | stsmaxlW (rs rn : Reg)
  | stsmaxlX (rs rn : Reg)
  | stsminb (rs rn : Reg)
  | stsminh (rs rn : Reg)
  | stsminW (rs rn : Reg)
  | stsminX (rs rn : Reg)
  | stsminlb (rs rn : Reg)
  | stsminlh (rs rn : Reg)
  | stsminlW (rs rn : Reg)
  | stsminlX (rs rn : Reg)
  | stumaxb (rs rn : Reg)
  | stumaxh (rs rn : Reg)
  | stumaxW (rs rn : Reg)
  | stumaxX (rs rn : Reg)
  | stumaxlb (rs rn : Reg)
  | stumaxlh (rs rn : Reg)
  | stumaxlW (rs rn : Reg)
  | stumaxlX (rs rn : Reg)
  | stuminb (rs rn : Reg)
  | stuminh (rs rn : Reg)
  | stuminW (rs rn : Reg)
  | stuminX (rs rn : Reg)
  | stuminlb (rs rn : Reg)
  | stuminlh (rs rn : Reg)
  | stuminlW (rs rn : Reg)
  | stuminlX (rs rn : Reg)
  | ldaddb (rs rt rn : Reg)
  | ldaddh (rs rt rn : Reg)
  | ldaddW (rs rt rn : Reg)
  | ldaddX (rs rt rn : Reg)
  | ldaddlb (rs rt rn : Reg)
  | ldaddlh (rs rt rn : Reg)
  | ldaddlW (rs rt rn : Reg)
  | ldaddlX (rs rt rn : Reg)
  | ldaddab (rs rt rn : Reg)
  | ldaddah (rs rt rn : Reg)
  | ldaddaW (rs rt rn : Reg)
  | ldaddaX (rs rt rn : Reg)
  | ldaddalb (rs rt rn : Reg)
  | ldaddalh (rs rt rn : Reg)
  | ldaddalW (rs rt rn : Reg)
  | ldaddalX (rs rt rn : Reg)
  | ldclrb (rs rt rn : Reg)
  | ldclrh (rs rt rn : Reg)
  | ldclrW (rs rt rn : Reg)
  | ldclrX (rs rt rn : Reg)
  | ldclrlb (rs rt rn : Reg)
  | ldclrlh (rs rt rn : Reg)
  | ldclrlW (rs rt rn : Reg)
  | ldclrlX (rs rt rn : Reg)
  | ldclrab (rs rt rn : Reg)
  | ldclrah (rs rt rn : Reg)
  | ldclraW (rs rt rn : Reg)
  | ldclraX (rs rt rn : Reg)
  | ldclralb (rs rt rn : Reg)
  | ldclralh (rs rt rn : Reg)
  | ldclralW (rs rt rn : Reg)
  | ldclralX (rs rt rn : Reg)
  | ldeorb (rs rt rn : Reg)
  | ldeorh (rs rt rn : Reg)
  | ldeorW (rs rt rn : Reg)
  | ldeorX (rs rt rn : Reg)
  | ldeorlb (rs rt rn : Reg)
  | ldeorlh (rs rt rn : Reg)
  | ldeorlW (rs rt rn : Reg)
  | ldeorlX (rs rt rn : Reg)
  | ldeorab (rs rt rn : Reg)
  | ldeorah (rs rt rn : Reg)
  | ldeoraW (rs rt rn : Reg)
  | ldeoraX (rs rt rn : Reg)
  | ldeoralb (rs rt rn : Reg)
  | ldeoralh (rs rt rn : Reg)
  | ldeoralW (rs rt rn : Reg)
  | ldeoralX (rs rt rn : Reg)
  | ldsetb (rs rt rn : Reg)
  | ldseth (rs rt rn : Reg)
  | ldsetW (rs rt rn : Reg)
  | ldsetX (rs rt rn : Reg)
  | ldsetlb (rs rt rn : Reg)
  | ldsetlh (rs rt rn : Reg)
  | ldsetlW (rs rt rn : Reg)
  | ldsetlX (rs rt rn : Reg)
  | ldsetab (rs rt rn : Reg)
  | ldsetah (rs rt rn : Reg)
  | ldsetaW (rs rt rn : Reg)
  | ldsetaX (rs rt rn : Reg)
  | ldsetalb (rs rt rn : Reg)
  | ldsetalh (rs rt rn : Reg)
  | ldsetalW (rs rt rn : Reg)
  | ldsetalX (rs rt rn : Reg)
  | ldsmaxb (rs rt rn : Reg)
  | ldsmaxh (rs rt rn : Reg)
  | ldsmaxW (rs rt rn : Reg)
  | ldsmaxX (rs rt rn : Reg)
  | ldsmaxlb (rs rt rn : Reg)
  | ldsmaxlh (rs rt rn : Reg)
  | ldsmaxlW (rs rt rn : Reg)
  | ldsmaxlX (rs rt rn : Reg)
  | ldsmaxab (rs rt rn : Reg)
  | ldsmaxah (rs rt rn : Reg)
  | ldsmaxaW (rs rt rn : Reg)
  | ldsmaxaX (rs rt rn : Reg)
  | ldsmaxalb (rs rt rn : Reg)
  | ldsmaxalh (rs rt rn : Reg)
  | ldsmaxalW (rs rt rn : Reg)
  | ldsmaxalX (rs rt rn : Reg)
  | ldsminb (rs rt rn : Reg)
  | ldsminh (rs rt rn : Reg)
  | ldsminW (rs rt rn : Reg)
  | ldsminX (rs rt rn : Reg)
  | ldsminlb (rs rt rn : Reg)
  | ldsminlh (rs rt rn : Reg)
  | ldsminlW (rs rt rn : Reg)
  | ldsminlX (rs rt rn : Reg)
  | ldsminab (rs rt rn : Reg)
  | ldsminah (rs rt rn : Reg)
  | ldsminaW (rs rt rn : Reg)
  | ldsminaX (rs rt rn : Reg)
  | ldsminalb (rs rt rn : Reg)
  | ldsminalh (rs rt rn : Reg)
  | ldsminalW (rs rt rn : Reg)
  | ldsminalX (rs rt rn : Reg)
  | ldumaxb (rs rt rn : Reg)
  | ldumaxh (rs rt rn : Reg)
  | ldumaxW (rs rt rn : Reg)
  | ldumaxX (rs rt rn : Reg)
  | ldumaxlb (rs rt rn : Reg)
  | ldumaxlh (rs rt rn : Reg)
  | ldumaxlW (rs rt rn : Reg)
  | ldumaxlX (rs rt rn : Reg)
  | ldumaxab (rs rt rn : Reg)
  | ldumaxah (rs rt rn : Reg)
  | ldumaxaW (rs rt rn : Reg)
  | ldumaxaX (rs rt rn : Reg)
  | ldumaxalb (rs rt rn : Reg)
  | ldumaxalh (rs rt rn : Reg)
  | ldumaxalW (rs rt rn : Reg)
  | ldumaxalX (rs rt rn : Reg)
  | lduminb (rs rt rn : Reg)
  | lduminh (rs rt rn : Reg)
  | lduminW (rs rt rn : Reg)
  | lduminX (rs rt rn : Reg)
  | lduminlb (rs rt rn : Reg)
  | lduminlh (rs rt rn : Reg)
  | lduminlW (rs rt rn : Reg)
  | lduminlX (rs rt rn : Reg)
  | lduminab (rs rt rn : Reg)
  | lduminah (rs rt rn : Reg)
  | lduminaW (rs rt rn : Reg)
  | lduminaX (rs rt rn : Reg)
  | lduminalb (rs rt rn : Reg)
  | lduminalh (rs rt rn : Reg)
  | lduminalW (rs rt rn : Reg)
  | lduminalX (rs rt rn : Reg)
  | swpb (rs rt rn : Reg)
  | swph (rs rt rn : Reg)
  | swpW (rs rt rn : Reg)
  | swpX (rs rt rn : Reg)
  | swplb (rs rt rn : Reg)
  | swplh (rs rt rn : Reg)
  | swplW (rs rt rn : Reg)
  | swplX (rs rt rn : Reg)
  | swpab (rs rt rn : Reg)
  | swpah (rs rt rn : Reg)
  | swpaW (rs rt rn : Reg)
  | swpaX (rs rt rn : Reg)
  | swpalb (rs rt rn : Reg)
  | swpalh (rs rt rn : Reg)
  | swpalW (rs rt rn : Reg)
  | swpalX (rs rt rn : Reg)
  -- prefetch (R272)
  | prfmImm (prfop : BitVec 5) (rn : Reg) (imm12 : BitVec 12)
  | prfum (prfop : BitVec 5) (rn : Reg) (imm9 : BitVec 9)
  | prfmReg (prfop : BitVec 5) (rn rm : Reg) (option : BitVec 3) (s : BitVec 1)
  | prfmLit (prfop : BitVec 5) (imm19 : BitVec 19)
  deriving DecidableEq, Repr, Inhabited

/-- The access sizes of the exclusive and atomic families (R270, R271). -/
inductive Size where
  | byte
  | half
  | word
  | dword
  deriving DecidableEq, Repr, Inhabited

/-- The operations of the atomic family: the eight of R401 to R408, and the store of SWP (R409). -/
inductive AtomicOp where
  | add
  | clr
  | eor
  | set
  | smax
  | smin
  | umax
  | umin
  | swp
  deriving DecidableEq, Repr, Inhabited

/-- `LD<op>` and `SWP` by operation, size, acquire and release (R271). -/
noncomputable def Instr.atomicOf (op : AtomicOp) (sz : Size) (acq rel : Bool) (rs rt rn : Reg) : Instr :=
  match op, sz, acq, rel with
  | .add, .byte, false, false => .ldaddb rs rt rn
  | .add, .byte, false, true => .ldaddlb rs rt rn
  | .add, .byte, true, false => .ldaddab rs rt rn
  | .add, .byte, true, true => .ldaddalb rs rt rn
  | .add, .half, false, false => .ldaddh rs rt rn
  | .add, .half, false, true => .ldaddlh rs rt rn
  | .add, .half, true, false => .ldaddah rs rt rn
  | .add, .half, true, true => .ldaddalh rs rt rn
  | .add, .word, false, false => .ldaddW rs rt rn
  | .add, .word, false, true => .ldaddlW rs rt rn
  | .add, .word, true, false => .ldaddaW rs rt rn
  | .add, .word, true, true => .ldaddalW rs rt rn
  | .add, .dword, false, false => .ldaddX rs rt rn
  | .add, .dword, false, true => .ldaddlX rs rt rn
  | .add, .dword, true, false => .ldaddaX rs rt rn
  | .add, .dword, true, true => .ldaddalX rs rt rn
  | .clr, .byte, false, false => .ldclrb rs rt rn
  | .clr, .byte, false, true => .ldclrlb rs rt rn
  | .clr, .byte, true, false => .ldclrab rs rt rn
  | .clr, .byte, true, true => .ldclralb rs rt rn
  | .clr, .half, false, false => .ldclrh rs rt rn
  | .clr, .half, false, true => .ldclrlh rs rt rn
  | .clr, .half, true, false => .ldclrah rs rt rn
  | .clr, .half, true, true => .ldclralh rs rt rn
  | .clr, .word, false, false => .ldclrW rs rt rn
  | .clr, .word, false, true => .ldclrlW rs rt rn
  | .clr, .word, true, false => .ldclraW rs rt rn
  | .clr, .word, true, true => .ldclralW rs rt rn
  | .clr, .dword, false, false => .ldclrX rs rt rn
  | .clr, .dword, false, true => .ldclrlX rs rt rn
  | .clr, .dword, true, false => .ldclraX rs rt rn
  | .clr, .dword, true, true => .ldclralX rs rt rn
  | .eor, .byte, false, false => .ldeorb rs rt rn
  | .eor, .byte, false, true => .ldeorlb rs rt rn
  | .eor, .byte, true, false => .ldeorab rs rt rn
  | .eor, .byte, true, true => .ldeoralb rs rt rn
  | .eor, .half, false, false => .ldeorh rs rt rn
  | .eor, .half, false, true => .ldeorlh rs rt rn
  | .eor, .half, true, false => .ldeorah rs rt rn
  | .eor, .half, true, true => .ldeoralh rs rt rn
  | .eor, .word, false, false => .ldeorW rs rt rn
  | .eor, .word, false, true => .ldeorlW rs rt rn
  | .eor, .word, true, false => .ldeoraW rs rt rn
  | .eor, .word, true, true => .ldeoralW rs rt rn
  | .eor, .dword, false, false => .ldeorX rs rt rn
  | .eor, .dword, false, true => .ldeorlX rs rt rn
  | .eor, .dword, true, false => .ldeoraX rs rt rn
  | .eor, .dword, true, true => .ldeoralX rs rt rn
  | .set, .byte, false, false => .ldsetb rs rt rn
  | .set, .byte, false, true => .ldsetlb rs rt rn
  | .set, .byte, true, false => .ldsetab rs rt rn
  | .set, .byte, true, true => .ldsetalb rs rt rn
  | .set, .half, false, false => .ldseth rs rt rn
  | .set, .half, false, true => .ldsetlh rs rt rn
  | .set, .half, true, false => .ldsetah rs rt rn
  | .set, .half, true, true => .ldsetalh rs rt rn
  | .set, .word, false, false => .ldsetW rs rt rn
  | .set, .word, false, true => .ldsetlW rs rt rn
  | .set, .word, true, false => .ldsetaW rs rt rn
  | .set, .word, true, true => .ldsetalW rs rt rn
  | .set, .dword, false, false => .ldsetX rs rt rn
  | .set, .dword, false, true => .ldsetlX rs rt rn
  | .set, .dword, true, false => .ldsetaX rs rt rn
  | .set, .dword, true, true => .ldsetalX rs rt rn
  | .smax, .byte, false, false => .ldsmaxb rs rt rn
  | .smax, .byte, false, true => .ldsmaxlb rs rt rn
  | .smax, .byte, true, false => .ldsmaxab rs rt rn
  | .smax, .byte, true, true => .ldsmaxalb rs rt rn
  | .smax, .half, false, false => .ldsmaxh rs rt rn
  | .smax, .half, false, true => .ldsmaxlh rs rt rn
  | .smax, .half, true, false => .ldsmaxah rs rt rn
  | .smax, .half, true, true => .ldsmaxalh rs rt rn
  | .smax, .word, false, false => .ldsmaxW rs rt rn
  | .smax, .word, false, true => .ldsmaxlW rs rt rn
  | .smax, .word, true, false => .ldsmaxaW rs rt rn
  | .smax, .word, true, true => .ldsmaxalW rs rt rn
  | .smax, .dword, false, false => .ldsmaxX rs rt rn
  | .smax, .dword, false, true => .ldsmaxlX rs rt rn
  | .smax, .dword, true, false => .ldsmaxaX rs rt rn
  | .smax, .dword, true, true => .ldsmaxalX rs rt rn
  | .smin, .byte, false, false => .ldsminb rs rt rn
  | .smin, .byte, false, true => .ldsminlb rs rt rn
  | .smin, .byte, true, false => .ldsminab rs rt rn
  | .smin, .byte, true, true => .ldsminalb rs rt rn
  | .smin, .half, false, false => .ldsminh rs rt rn
  | .smin, .half, false, true => .ldsminlh rs rt rn
  | .smin, .half, true, false => .ldsminah rs rt rn
  | .smin, .half, true, true => .ldsminalh rs rt rn
  | .smin, .word, false, false => .ldsminW rs rt rn
  | .smin, .word, false, true => .ldsminlW rs rt rn
  | .smin, .word, true, false => .ldsminaW rs rt rn
  | .smin, .word, true, true => .ldsminalW rs rt rn
  | .smin, .dword, false, false => .ldsminX rs rt rn
  | .smin, .dword, false, true => .ldsminlX rs rt rn
  | .smin, .dword, true, false => .ldsminaX rs rt rn
  | .smin, .dword, true, true => .ldsminalX rs rt rn
  | .umax, .byte, false, false => .ldumaxb rs rt rn
  | .umax, .byte, false, true => .ldumaxlb rs rt rn
  | .umax, .byte, true, false => .ldumaxab rs rt rn
  | .umax, .byte, true, true => .ldumaxalb rs rt rn
  | .umax, .half, false, false => .ldumaxh rs rt rn
  | .umax, .half, false, true => .ldumaxlh rs rt rn
  | .umax, .half, true, false => .ldumaxah rs rt rn
  | .umax, .half, true, true => .ldumaxalh rs rt rn
  | .umax, .word, false, false => .ldumaxW rs rt rn
  | .umax, .word, false, true => .ldumaxlW rs rt rn
  | .umax, .word, true, false => .ldumaxaW rs rt rn
  | .umax, .word, true, true => .ldumaxalW rs rt rn
  | .umax, .dword, false, false => .ldumaxX rs rt rn
  | .umax, .dword, false, true => .ldumaxlX rs rt rn
  | .umax, .dword, true, false => .ldumaxaX rs rt rn
  | .umax, .dword, true, true => .ldumaxalX rs rt rn
  | .umin, .byte, false, false => .lduminb rs rt rn
  | .umin, .byte, false, true => .lduminlb rs rt rn
  | .umin, .byte, true, false => .lduminab rs rt rn
  | .umin, .byte, true, true => .lduminalb rs rt rn
  | .umin, .half, false, false => .lduminh rs rt rn
  | .umin, .half, false, true => .lduminlh rs rt rn
  | .umin, .half, true, false => .lduminah rs rt rn
  | .umin, .half, true, true => .lduminalh rs rt rn
  | .umin, .word, false, false => .lduminW rs rt rn
  | .umin, .word, false, true => .lduminlW rs rt rn
  | .umin, .word, true, false => .lduminaW rs rt rn
  | .umin, .word, true, true => .lduminalW rs rt rn
  | .umin, .dword, false, false => .lduminX rs rt rn
  | .umin, .dword, false, true => .lduminlX rs rt rn
  | .umin, .dword, true, false => .lduminaX rs rt rn
  | .umin, .dword, true, true => .lduminalX rs rt rn
  | .swp, .byte, false, false => .swpb rs rt rn
  | .swp, .byte, false, true => .swplb rs rt rn
  | .swp, .byte, true, false => .swpab rs rt rn
  | .swp, .byte, true, true => .swpalb rs rt rn
  | .swp, .half, false, false => .swph rs rt rn
  | .swp, .half, false, true => .swplh rs rt rn
  | .swp, .half, true, false => .swpah rs rt rn
  | .swp, .half, true, true => .swpalh rs rt rn
  | .swp, .word, false, false => .swpW rs rt rn
  | .swp, .word, false, true => .swplW rs rt rn
  | .swp, .word, true, false => .swpaW rs rt rn
  | .swp, .word, true, true => .swpalW rs rt rn
  | .swp, .dword, false, false => .swpX rs rt rn
  | .swp, .dword, false, true => .swplX rs rt rn
  | .swp, .dword, true, false => .swpaX rs rt rn
  | .swp, .dword, true, true => .swpalX rs rt rn

/-- `ST<op>` by operation, size and release (R410); SWP has no such alias and is given as `SWP`
with register 31 as its destination. -/
noncomputable def Instr.storeAtomicOf (op : AtomicOp) (sz : Size) (rel : Bool) (rs rn : Reg) : Instr :=
  match op, sz, rel with
  | .add, .byte, false => .staddb rs rn
  | .add, .byte, true => .staddlb rs rn
  | .add, .half, false => .staddh rs rn
  | .add, .half, true => .staddlh rs rn
  | .add, .word, false => .staddW rs rn
  | .add, .word, true => .staddlW rs rn
  | .add, .dword, false => .staddX rs rn
  | .add, .dword, true => .staddlX rs rn
  | .clr, .byte, false => .stclrb rs rn
  | .clr, .byte, true => .stclrlb rs rn
  | .clr, .half, false => .stclrh rs rn
  | .clr, .half, true => .stclrlh rs rn
  | .clr, .word, false => .stclrW rs rn
  | .clr, .word, true => .stclrlW rs rn
  | .clr, .dword, false => .stclrX rs rn
  | .clr, .dword, true => .stclrlX rs rn
  | .eor, .byte, false => .steorb rs rn
  | .eor, .byte, true => .steorlb rs rn
  | .eor, .half, false => .steorh rs rn
  | .eor, .half, true => .steorlh rs rn
  | .eor, .word, false => .steorW rs rn
  | .eor, .word, true => .steorlW rs rn
  | .eor, .dword, false => .steorX rs rn
  | .eor, .dword, true => .steorlX rs rn
  | .set, .byte, false => .stsetb rs rn
  | .set, .byte, true => .stsetlb rs rn
  | .set, .half, false => .stseth rs rn
  | .set, .half, true => .stsetlh rs rn
  | .set, .word, false => .stsetW rs rn
  | .set, .word, true => .stsetlW rs rn
  | .set, .dword, false => .stsetX rs rn
  | .set, .dword, true => .stsetlX rs rn
  | .smax, .byte, false => .stsmaxb rs rn
  | .smax, .byte, true => .stsmaxlb rs rn
  | .smax, .half, false => .stsmaxh rs rn
  | .smax, .half, true => .stsmaxlh rs rn
  | .smax, .word, false => .stsmaxW rs rn
  | .smax, .word, true => .stsmaxlW rs rn
  | .smax, .dword, false => .stsmaxX rs rn
  | .smax, .dword, true => .stsmaxlX rs rn
  | .smin, .byte, false => .stsminb rs rn
  | .smin, .byte, true => .stsminlb rs rn
  | .smin, .half, false => .stsminh rs rn
  | .smin, .half, true => .stsminlh rs rn
  | .smin, .word, false => .stsminW rs rn
  | .smin, .word, true => .stsminlW rs rn
  | .smin, .dword, false => .stsminX rs rn
  | .smin, .dword, true => .stsminlX rs rn
  | .umax, .byte, false => .stumaxb rs rn
  | .umax, .byte, true => .stumaxlb rs rn
  | .umax, .half, false => .stumaxh rs rn
  | .umax, .half, true => .stumaxlh rs rn
  | .umax, .word, false => .stumaxW rs rn
  | .umax, .word, true => .stumaxlW rs rn
  | .umax, .dword, false => .stumaxX rs rn
  | .umax, .dword, true => .stumaxlX rs rn
  | .umin, .byte, false => .stuminb rs rn
  | .umin, .byte, true => .stuminlb rs rn
  | .umin, .half, false => .stuminh rs rn
  | .umin, .half, true => .stuminlh rs rn
  | .umin, .word, false => .stuminW rs rn
  | .umin, .word, true => .stuminlW rs rn
  | .umin, .dword, false => .stuminX rs rn
  | .umin, .dword, true => .stuminlX rs rn
  | .swp, sz, rel => Instr.atomicOf .swp sz false rel rs 31 rn

/-- `CAS` by size, acquire and release (R397 to R399). -/
noncomputable def Instr.casOf (sz : Size) (acq rel : Bool) (rs rt rn : Reg) : Instr :=
  match sz, acq, rel with
  | .byte, false, false => .casb rs rt rn
  | .byte, false, true => .caslb rs rt rn
  | .byte, true, false => .casab rs rt rn
  | .byte, true, true => .casalb rs rt rn
  | .half, false, false => .cash rs rt rn
  | .half, false, true => .caslh rs rt rn
  | .half, true, false => .casah rs rt rn
  | .half, true, true => .casalh rs rt rn
  | .word, false, false => .casW rs rt rn
  | .word, false, true => .caslW rs rt rn
  | .word, true, false => .casaW rs rt rn
  | .word, true, true => .casalW rs rt rn
  | .dword, false, false => .casX rs rt rn
  | .dword, false, true => .caslX rs rt rn
  | .dword, true, false => .casaX rs rt rn
  | .dword, true, true => .casalX rs rt rn

/-- `CASP` by register width (`true`: doublewords), acquire and release (R400). -/
noncomputable def Instr.caspOf (wide acq rel : Bool) (rs rt rn : Reg) : Instr :=
  match wide, acq, rel with
  | false, false, false => .caspW rs rt rn
  | false, false, true => .casplW rs rt rn
  | false, true, false => .caspaW rs rt rn
  | false, true, true => .caspalW rs rt rn
  | true, false, false => .caspX rs rt rn
  | true, false, true => .casplX rs rt rn
  | true, true, false => .caspaX rs rt rn
  | true, true, true => .caspalX rs rt rn

/-- The Load-Exclusives of one register by size and acquire (R380 to R386). -/
noncomputable def Instr.loadExclOf (sz : Size) (acq : Bool) (rt rn : Reg) : Instr :=
  match sz, acq with
  | .byte, false => .ldxrb rt rn
  | .byte, true => .ldaxrb rt rn
  | .half, false => .ldxrh rt rn
  | .half, true => .ldaxrh rt rn
  | .word, false => .ldxrW rt rn
  | .word, true => .ldaxrW rt rn
  | .dword, false => .ldxrX rt rn
  | .dword, true => .ldaxrX rt rn

/-- The Load-Exclusive pairs by register width and acquire (R383, R387). -/
noncomputable def Instr.loadExclPairOf (wide acq : Bool) (rt rt2 rn : Reg) : Instr :=
  match wide, acq with
  | false, false => .ldxpW rt rt2 rn
  | false, true => .ldaxpW rt rt2 rn
  | true, false => .ldxpX rt rt2 rn
  | true, true => .ldaxpX rt rt2 rn

/-- The Store-Exclusives of one register by size and release (R388 to R394). -/
noncomputable def Instr.storeExclOf (sz : Size) (rel : Bool) (rs rt rn : Reg) : Instr :=
  match sz, rel with
  | .byte, false => .stxrb rs rt rn
  | .byte, true => .stlxrb rs rt rn
  | .half, false => .stxrh rs rt rn
  | .half, true => .stlxrh rs rt rn
  | .word, false => .stxrW rs rt rn
  | .word, true => .stlxrW rs rt rn
  | .dword, false => .stxrX rs rt rn
  | .dword, true => .stlxrX rs rt rn

/-- The Store-Exclusive pairs by register width and release (R391, R395). -/
noncomputable def Instr.storeExclPairOf (wide rel : Bool) (rs rt rt2 rn : Reg) : Instr :=
  match wide, rel with
  | false, false => .stxpW rs rt rt2 rn
  | false, true => .stlxpW rs rt rt2 rn
  | true, false => .stxpX rs rt rt2 rn
  | true, true => .stlxpX rs rt rt2 rn

end Sys2Proof
end

