-- ==== Sys2Proof/WellFormed.lean ====
section
/-! DEFINITION. Which instructions have an encoding of their own: an operand form that the table
gives to another row is not well-formed. -/

namespace Sys2Proof

/-- The four `SYS` operations that have rows of their own: RAMINDEX, DC ZVA, DC CISW and DC IVAC
(R273, R312). -/
def isNamedSys (op1 : BitVec 3) (crn crm : BitVec 4) (op2 : BitVec 3) : Bool :=
  (op1 == 6 && crn == 15 && crm == 0 && op2 == 0) ||
  (op1 == 3 && crn == 7 && crm == 4 && op2 == 1) ||
  (op1 == 0 && crn == 7 && crm == 14 && op2 == 2) ||
  (op1 == 0 && crn == 7 && crm == 6 && op2 == 1)

/-- An instruction that its own row decodes to. `LD<op>` without acquire and with register 31 as
destination is `ST<op>` (R278 (b)); a named `SYS` operation is its own row (R273). -/
def Instr.wellFormed (i : Instr) : Bool :=
  match i with
  | .wfe => true
  | .wfi => true
  | .esb => true
  | .clrex .. => true
  | .isb .. => true
  | .ramindex .. => true
  | .dcZva .. => true
  | .dcCisw .. => true
  | .dcIvac .. => true
  | .sys op1 crn crm op2 _ => !isNamedSys op1 crn crm op2
  | .mrs .. => true
  | .msr .. => true
  | .bl .. => true
  | .blr .. => true
  | .blraaz .. => true
  | .blrabz .. => true
  | .blraa .. => true
  | .blrab .. => true
  | .ret .. => true
  | .retaa => true
  | .retab => true
  | .eret => true
  | .eretaa => true
  | .eretab => true
  | .ldxrb .. => true
  | .ldxrh .. => true
  | .ldxrW .. => true
  | .ldxrX .. => true
  | .ldxpW .. => true
  | .ldxpX .. => true
  | .ldaxrb .. => true
  | .ldaxrh .. => true
  | .ldaxrW .. => true
  | .ldaxrX .. => true
  | .ldaxpW .. => true
  | .ldaxpX .. => true
  | .stxrb .. => true
  | .stxrh .. => true
  | .stxrW .. => true
  | .stxrX .. => true
  | .stxpW .. => true
  | .stxpX .. => true
  | .stlxrb .. => true
  | .stlxrh .. => true
  | .stlxrW .. => true
  | .stlxrX .. => true
  | .stlxpW .. => true
  | .stlxpX .. => true
  | .casW .. => true
  | .caslW .. => true
  | .casaW .. => true
  | .casalW .. => true
  | .casX .. => true
  | .caslX .. => true
  | .casaX .. => true
  | .casalX .. => true
  | .casb .. => true
  | .caslb .. => true
  | .casab .. => true
  | .casalb .. => true
  | .cash .. => true
  | .caslh .. => true
  | .casah .. => true
  | .casalh .. => true
  | .caspW .. => true
  | .casplW .. => true
  | .caspaW .. => true
  | .caspalW .. => true
  | .caspX .. => true
  | .casplX .. => true
  | .caspaX .. => true
  | .caspalX .. => true
  | .staddb .. => true
  | .staddh .. => true
  | .staddW .. => true
  | .staddX .. => true
  | .staddlb .. => true
  | .staddlh .. => true
  | .staddlW .. => true
  | .staddlX .. => true
  | .stclrb .. => true
  | .stclrh .. => true
  | .stclrW .. => true
  | .stclrX .. => true
  | .stclrlb .. => true
  | .stclrlh .. => true
  | .stclrlW .. => true
  | .stclrlX .. => true
  | .steorb .. => true
  | .steorh .. => true
  | .steorW .. => true
  | .steorX .. => true
  | .steorlb .. => true
  | .steorlh .. => true
  | .steorlW .. => true
  | .steorlX .. => true
  | .stsetb .. => true
  | .stseth .. => true
  | .stsetW .. => true
  | .stsetX .. => true
  | .stsetlb .. => true
  | .stsetlh .. => true
  | .stsetlW .. => true
  | .stsetlX .. => true
  | .stsmaxb .. => true
  | .stsmaxh .. => true
  | .stsmaxW .. => true
  | .stsmaxX .. => true
  | .stsmaxlb .. => true
  | .stsmaxlh .. => true
  | .stsmaxlW .. => true
  | .stsmaxlX .. => true
  | .stsminb .. => true
  | .stsminh .. => true
  | .stsminW .. => true
  | .stsminX .. => true
  | .stsminlb .. => true
  | .stsminlh .. => true
  | .stsminlW .. => true
  | .stsminlX .. => true
  | .stumaxb .. => true
  | .stumaxh .. => true
  | .stumaxW .. => true
  | .stumaxX .. => true
  | .stumaxlb .. => true
  | .stumaxlh .. => true
  | .stumaxlW .. => true
  | .stumaxlX .. => true
  | .stuminb .. => true
  | .stuminh .. => true
  | .stuminW .. => true
  | .stuminX .. => true
  | .stuminlb .. => true
  | .stuminlh .. => true
  | .stuminlW .. => true
  | .stuminlX .. => true
  | .ldaddb _ rt _ => rt != 31
  | .ldaddh _ rt _ => rt != 31
  | .ldaddW _ rt _ => rt != 31
  | .ldaddX _ rt _ => rt != 31
  | .ldaddlb _ rt _ => rt != 31
  | .ldaddlh _ rt _ => rt != 31
  | .ldaddlW _ rt _ => rt != 31
  | .ldaddlX _ rt _ => rt != 31
  | .ldaddab .. => true
  | .ldaddah .. => true
  | .ldaddaW .. => true
  | .ldaddaX .. => true
  | .ldaddalb .. => true
  | .ldaddalh .. => true
  | .ldaddalW .. => true
  | .ldaddalX .. => true
  | .ldclrb _ rt _ => rt != 31
  | .ldclrh _ rt _ => rt != 31
  | .ldclrW _ rt _ => rt != 31
  | .ldclrX _ rt _ => rt != 31
  | .ldclrlb _ rt _ => rt != 31
  | .ldclrlh _ rt _ => rt != 31
  | .ldclrlW _ rt _ => rt != 31
  | .ldclrlX _ rt _ => rt != 31
  | .ldclrab .. => true
  | .ldclrah .. => true
  | .ldclraW .. => true
  | .ldclraX .. => true
  | .ldclralb .. => true
  | .ldclralh .. => true
  | .ldclralW .. => true
  | .ldclralX .. => true
  | .ldeorb _ rt _ => rt != 31
  | .ldeorh _ rt _ => rt != 31
  | .ldeorW _ rt _ => rt != 31
  | .ldeorX _ rt _ => rt != 31
  | .ldeorlb _ rt _ => rt != 31
  | .ldeorlh _ rt _ => rt != 31
  | .ldeorlW _ rt _ => rt != 31
  | .ldeorlX _ rt _ => rt != 31
  | .ldeorab .. => true
  | .ldeorah .. => true
  | .ldeoraW .. => true
  | .ldeoraX .. => true
  | .ldeoralb .. => true
  | .ldeoralh .. => true
  | .ldeoralW .. => true
  | .ldeoralX .. => true
  | .ldsetb _ rt _ => rt != 31
  | .ldseth _ rt _ => rt != 31
  | .ldsetW _ rt _ => rt != 31
  | .ldsetX _ rt _ => rt != 31
  | .ldsetlb _ rt _ => rt != 31
  | .ldsetlh _ rt _ => rt != 31
  | .ldsetlW _ rt _ => rt != 31
  | .ldsetlX _ rt _ => rt != 31
  | .ldsetab .. => true
  | .ldsetah .. => true
  | .ldsetaW .. => true
  | .ldsetaX .. => true
  | .ldsetalb .. => true
  | .ldsetalh .. => true
  | .ldsetalW .. => true
  | .ldsetalX .. => true
  | .ldsmaxb _ rt _ => rt != 31
  | .ldsmaxh _ rt _ => rt != 31
  | .ldsmaxW _ rt _ => rt != 31
  | .ldsmaxX _ rt _ => rt != 31
  | .ldsmaxlb _ rt _ => rt != 31
  | .ldsmaxlh _ rt _ => rt != 31
  | .ldsmaxlW _ rt _ => rt != 31
  | .ldsmaxlX _ rt _ => rt != 31
  | .ldsmaxab .. => true
  | .ldsmaxah .. => true
  | .ldsmaxaW .. => true
  | .ldsmaxaX .. => true
  | .ldsmaxalb .. => true
  | .ldsmaxalh .. => true
  | .ldsmaxalW .. => true
  | .ldsmaxalX .. => true
  | .ldsminb _ rt _ => rt != 31
  | .ldsminh _ rt _ => rt != 31
  | .ldsminW _ rt _ => rt != 31
  | .ldsminX _ rt _ => rt != 31
  | .ldsminlb _ rt _ => rt != 31
  | .ldsminlh _ rt _ => rt != 31
  | .ldsminlW _ rt _ => rt != 31
  | .ldsminlX _ rt _ => rt != 31
  | .ldsminab .. => true
  | .ldsminah .. => true
  | .ldsminaW .. => true
  | .ldsminaX .. => true
  | .ldsminalb .. => true
  | .ldsminalh .. => true
  | .ldsminalW .. => true
  | .ldsminalX .. => true
  | .ldumaxb _ rt _ => rt != 31
  | .ldumaxh _ rt _ => rt != 31
  | .ldumaxW _ rt _ => rt != 31
  | .ldumaxX _ rt _ => rt != 31
  | .ldumaxlb _ rt _ => rt != 31
  | .ldumaxlh _ rt _ => rt != 31
  | .ldumaxlW _ rt _ => rt != 31
  | .ldumaxlX _ rt _ => rt != 31
  | .ldumaxab .. => true
  | .ldumaxah .. => true
  | .ldumaxaW .. => true
  | .ldumaxaX .. => true
  | .ldumaxalb .. => true
  | .ldumaxalh .. => true
  | .ldumaxalW .. => true
  | .ldumaxalX .. => true
  | .lduminb _ rt _ => rt != 31
  | .lduminh _ rt _ => rt != 31
  | .lduminW _ rt _ => rt != 31
  | .lduminX _ rt _ => rt != 31
  | .lduminlb _ rt _ => rt != 31
  | .lduminlh _ rt _ => rt != 31
  | .lduminlW _ rt _ => rt != 31
  | .lduminlX _ rt _ => rt != 31
  | .lduminab .. => true
  | .lduminah .. => true
  | .lduminaW .. => true
  | .lduminaX .. => true
  | .lduminalb .. => true
  | .lduminalh .. => true
  | .lduminalW .. => true
  | .lduminalX .. => true
  | .swpb .. => true
  | .swph .. => true
  | .swpW .. => true
  | .swpX .. => true
  | .swplb .. => true
  | .swplh .. => true
  | .swplW .. => true
  | .swplX .. => true
  | .swpab .. => true
  | .swpah .. => true
  | .swpaW .. => true
  | .swpaX .. => true
  | .swpalb .. => true
  | .swpalh .. => true
  | .swpalW .. => true
  | .swpalX .. => true
  | .prfmImm .. => true
  | .prfum .. => true
  | .prfmReg .. => true
  | .prfmLit .. => true

end Sys2Proof
end

