-- ==== Sys2Proof/Decode.lean ====
section
/-! DEFINITION. Decoding: the opcode table as a list of rows, the first row that matches taken
(R261), total on any bytes; and the encoder, written from the same formats. What builds an
instruction is marked noncomputable for the reason Syntax.lean gives. -/

namespace Sys2Proof

/-- Why a word is not decoded. -/
inductive DecodeRefusal where
  /-- fewer than the four bytes of an instruction are left (R262) -/
  | truncated
  /-- no row matches: the word belongs to the Arm ARM (R261, D4) -/
  | noRow
  /-- a word of the exclusive format with a should-be-one bit 0 (R275 (c), U12) -/
  | shouldBeOne
  deriving DecidableEq, Repr, Inhabited

/-- A row of the table: `(word & mask) = val` selects it, and `build` reads its operands. -/
structure Row where
  mask : Ins
  val : Ins
  build : Ins → Instr

/-- The row selects the word (R261). -/
def Row.selects (r : Row) (w : Ins) : Bool := w &&& r.mask == r.val

/-- Register fields: `Rt` [4:0], `Rn` [9:5], `Rt2` [14:10], `Rs` and `Rm` [20:16] (R269 to R272). -/
def fRt (w : Ins) : Reg := w.extractLsb' 0 5
def fRn (w : Ins) : Reg := w.extractLsb' 5 5
def fRt2 (w : Ins) : Reg := w.extractLsb' 10 5
def fRs (w : Ins) : Reg := w.extractLsb' 16 5

/-- The register named by a system register move: o0 [19], op1 [18:16], CRn [15:12], CRm [11:8],
op2 [7:5] (R263, R267). -/
def fEnc (w : Ins) : SysEnc where
  o0 := w.extractLsb' 19 1
  op1 := w.extractLsb' 16 3
  crn := w.extractLsb' 12 4
  crm := w.extractLsb' 8 4
  op2 := w.extractLsb' 5 3

/-- Operand readers, one for each shape of the table. -/
def bFixed (c : Instr) (_ : Ins) : Instr := c
def bCrm (c : BitVec 4 → Instr) (w : Ins) : Instr := c (w.extractLsb' 8 4)
def bRt (c : Reg → Instr) (w : Ins) : Instr := c (fRt w)
def bRn (c : Reg → Instr) (w : Ins) : Instr := c (fRn w)
def bRnRm (c : Reg → Reg → Instr) (w : Ins) : Instr := c (fRn w) (fRt w)
def bRtRn (c : Reg → Reg → Instr) (w : Ins) : Instr := c (fRt w) (fRn w)
def bRtRt2Rn (c : Reg → Reg → Reg → Instr) (w : Ins) : Instr := c (fRt w) (fRt2 w) (fRn w)
def bRsRtRn (c : Reg → Reg → Reg → Instr) (w : Ins) : Instr := c (fRs w) (fRt w) (fRn w)
def bRsRtRt2Rn (c : Reg → Reg → Reg → Reg → Instr) (w : Ins) : Instr :=
  c (fRs w) (fRt w) (fRt2 w) (fRn w)
def bRsRn (c : Reg → Reg → Instr) (w : Ins) : Instr := c (fRs w) (fRn w)
def bImm26 (c : BitVec 26 → Instr) (w : Ins) : Instr := c (w.extractLsb' 0 26)
def bSys (c : BitVec 3 → BitVec 4 → BitVec 4 → BitVec 3 → Reg → Instr) (w : Ins) : Instr :=
  c (w.extractLsb' 16 3) (w.extractLsb' 12 4) (w.extractLsb' 8 4) (w.extractLsb' 5 3) (fRt w)
def bMrs (c : Reg → SysEnc → Instr) (w : Ins) : Instr := c (fRt w) (fEnc w)
def bMsr (c : SysEnc → Reg → Instr) (w : Ins) : Instr := c (fEnc w) (fRt w)
def bPrfmImm (c : BitVec 5 → Reg → BitVec 12 → Instr) (w : Ins) : Instr :=
  c (fRt w) (fRn w) (w.extractLsb' 10 12)
def bPrfum (c : BitVec 5 → Reg → BitVec 9 → Instr) (w : Ins) : Instr :=
  c (fRt w) (fRn w) (w.extractLsb' 12 9)
def bPrfmReg (c : BitVec 5 → Reg → Reg → BitVec 3 → BitVec 1 → Instr) (w : Ins) : Instr :=
  c (fRt w) (fRn w) (fRs w) (w.extractLsb' 13 3) (w.extractLsb' 12 1)
def bPrfmLit (c : BitVec 5 → BitVec 19 → Instr) (w : Ins) : Instr :=
  c (fRt w) (w.extractLsb' 5 19)

/-- Rows 0 to 23 of the table, counted from 0. -/
noncomputable def rows0 : List Row := [
  ⟨0xFFFFFFFF, 0xD503205F, bFixed .wfe⟩,
  ⟨0xFFFFFFFF, 0xD503207F, bFixed .wfi⟩,
  ⟨0xFFFFFFFF, 0xD503221F, bFixed .esb⟩,
  ⟨0xFFFFF0FF, 0xD503305F, bCrm .clrex⟩,
  ⟨0xFFFFF0FF, 0xD50330DF, bCrm .isb⟩,
  ⟨0xFFFFFFE0, 0xD50EF000, bRt .ramindex⟩,
  ⟨0xFFFFFFE0, 0xD50B7420, bRt .dcZva⟩,
  ⟨0xFFFFFFE0, 0xD5087E40, bRt .dcCisw⟩,
  ⟨0xFFFFFFE0, 0xD5087620, bRt .dcIvac⟩,
  ⟨0xFFF80000, 0xD5080000, bSys .sys⟩,
  ⟨0xFFF00000, 0xD5300000, bMrs .mrs⟩,
  ⟨0xFFF00000, 0xD5100000, bMsr .msr⟩,
  ⟨0xFC000000, 0x94000000, bImm26 .bl⟩,
  ⟨0xFFFFFC1F, 0xD63F0000, bRn .blr⟩,
  ⟨0xFFFFFC1F, 0xD63F081F, bRn .blraaz⟩,
  ⟨0xFFFFFC1F, 0xD63F0C1F, bRn .blrabz⟩,
  ⟨0xFFFFFC00, 0xD73F0800, bRnRm .blraa⟩,
  ⟨0xFFFFFC00, 0xD73F0C00, bRnRm .blrab⟩,
  ⟨0xFFFFFC1F, 0xD65F0000, bRn .ret⟩,
  ⟨0xFFFFFFFF, 0xD65F0BFF, bFixed .retaa⟩,
  ⟨0xFFFFFFFF, 0xD65F0FFF, bFixed .retab⟩,
  ⟨0xFFFFFFFF, 0xD69F03E0, bFixed .eret⟩,
  ⟨0xFFFFFFFF, 0xD69F0BFF, bFixed .eretaa⟩,
  ⟨0xFFFFFFFF, 0xD69F0FFF, bFixed .eretab⟩]

/-- Rows 24 to 47 of the table, counted from 0. -/
noncomputable def rows1 : List Row := [
  ⟨0xFFFFFC00, 0x085F7C00, bRtRn .ldxrb⟩,
  ⟨0xFFFFFC00, 0x485F7C00, bRtRn .ldxrh⟩,
  ⟨0xFFFFFC00, 0x885F7C00, bRtRn .ldxrW⟩,
  ⟨0xFFFFFC00, 0xC85F7C00, bRtRn .ldxrX⟩,
  ⟨0xFFFF8000, 0x887F0000, bRtRt2Rn .ldxpW⟩,
  ⟨0xFFFF8000, 0xC87F0000, bRtRt2Rn .ldxpX⟩,
  ⟨0xFFFFFC00, 0x085FFC00, bRtRn .ldaxrb⟩,
  ⟨0xFFFFFC00, 0x485FFC00, bRtRn .ldaxrh⟩,
  ⟨0xFFFFFC00, 0x885FFC00, bRtRn .ldaxrW⟩,
  ⟨0xFFFFFC00, 0xC85FFC00, bRtRn .ldaxrX⟩,
  ⟨0xFFFF8000, 0x887F8000, bRtRt2Rn .ldaxpW⟩,
  ⟨0xFFFF8000, 0xC87F8000, bRtRt2Rn .ldaxpX⟩,
  ⟨0xFFE0FC00, 0x08007C00, bRsRtRn .stxrb⟩,
  ⟨0xFFE0FC00, 0x48007C00, bRsRtRn .stxrh⟩,
  ⟨0xFFE0FC00, 0x88007C00, bRsRtRn .stxrW⟩,
  ⟨0xFFE0FC00, 0xC8007C00, bRsRtRn .stxrX⟩,
  ⟨0xFFE08000, 0x88200000, bRsRtRt2Rn .stxpW⟩,
  ⟨0xFFE08000, 0xC8200000, bRsRtRt2Rn .stxpX⟩,
  ⟨0xFFE0FC00, 0x0800FC00, bRsRtRn .stlxrb⟩,
  ⟨0xFFE0FC00, 0x4800FC00, bRsRtRn .stlxrh⟩,
  ⟨0xFFE0FC00, 0x8800FC00, bRsRtRn .stlxrW⟩,
  ⟨0xFFE0FC00, 0xC800FC00, bRsRtRn .stlxrX⟩,
  ⟨0xFFE08000, 0x88208000, bRsRtRt2Rn .stlxpW⟩,
  ⟨0xFFE08000, 0xC8208000, bRsRtRt2Rn .stlxpX⟩]

/-- Rows 48 to 71 of the table, counted from 0. -/
noncomputable def rows2 : List Row := [
  ⟨0xFFE0FC00, 0x88A07C00, bRsRtRn .casW⟩,
  ⟨0xFFE0FC00, 0x88A0FC00, bRsRtRn .caslW⟩,
  ⟨0xFFE0FC00, 0x88E07C00, bRsRtRn .casaW⟩,
  ⟨0xFFE0FC00, 0x88E0FC00, bRsRtRn .casalW⟩,
  ⟨0xFFE0FC00, 0xC8A07C00, bRsRtRn .casX⟩,
  ⟨0xFFE0FC00, 0xC8A0FC00, bRsRtRn .caslX⟩,
  ⟨0xFFE0FC00, 0xC8E07C00, bRsRtRn .casaX⟩,
  ⟨0xFFE0FC00, 0xC8E0FC00, bRsRtRn .casalX⟩,
  ⟨0xFFE0FC00, 0x08A07C00, bRsRtRn .casb⟩,
  ⟨0xFFE0FC00, 0x08A0FC00, bRsRtRn .caslb⟩,
  ⟨0xFFE0FC00, 0x08E07C00, bRsRtRn .casab⟩,
  ⟨0xFFE0FC00, 0x08E0FC00, bRsRtRn .casalb⟩,
  ⟨0xFFE0FC00, 0x48A07C00, bRsRtRn .cash⟩,
  ⟨0xFFE0FC00, 0x48A0FC00, bRsRtRn .caslh⟩,
  ⟨0xFFE0FC00, 0x48E07C00, bRsRtRn .casah⟩,
  ⟨0xFFE0FC00, 0x48E0FC00, bRsRtRn .casalh⟩,
  ⟨0xFFE0FC00, 0x08207C00, bRsRtRn .caspW⟩,
  ⟨0xFFE0FC00, 0x0820FC00, bRsRtRn .casplW⟩,
  ⟨0xFFE0FC00, 0x08607C00, bRsRtRn .caspaW⟩,
  ⟨0xFFE0FC00, 0x0860FC00, bRsRtRn .caspalW⟩,
  ⟨0xFFE0FC00, 0x48207C00, bRsRtRn .caspX⟩,
  ⟨0xFFE0FC00, 0x4820FC00, bRsRtRn .casplX⟩,
  ⟨0xFFE0FC00, 0x48607C00, bRsRtRn .caspaX⟩,
  ⟨0xFFE0FC00, 0x4860FC00, bRsRtRn .caspalX⟩]

/-- Rows 72 to 95 of the table, counted from 0. -/
noncomputable def rows3 : List Row := [
  ⟨0xFFE0FC1F, 0x3820001F, bRsRn .staddb⟩,
  ⟨0xFFE0FC1F, 0x7820001F, bRsRn .staddh⟩,
  ⟨0xFFE0FC1F, 0xB820001F, bRsRn .staddW⟩,
  ⟨0xFFE0FC1F, 0xF820001F, bRsRn .staddX⟩,
  ⟨0xFFE0FC1F, 0x3860001F, bRsRn .staddlb⟩,
  ⟨0xFFE0FC1F, 0x7860001F, bRsRn .staddlh⟩,
  ⟨0xFFE0FC1F, 0xB860001F, bRsRn .staddlW⟩,
  ⟨0xFFE0FC1F, 0xF860001F, bRsRn .staddlX⟩,
  ⟨0xFFE0FC1F, 0x3820101F, bRsRn .stclrb⟩,
  ⟨0xFFE0FC1F, 0x7820101F, bRsRn .stclrh⟩,
  ⟨0xFFE0FC1F, 0xB820101F, bRsRn .stclrW⟩,
  ⟨0xFFE0FC1F, 0xF820101F, bRsRn .stclrX⟩,
  ⟨0xFFE0FC1F, 0x3860101F, bRsRn .stclrlb⟩,
  ⟨0xFFE0FC1F, 0x7860101F, bRsRn .stclrlh⟩,
  ⟨0xFFE0FC1F, 0xB860101F, bRsRn .stclrlW⟩,
  ⟨0xFFE0FC1F, 0xF860101F, bRsRn .stclrlX⟩,
  ⟨0xFFE0FC1F, 0x3820201F, bRsRn .steorb⟩,
  ⟨0xFFE0FC1F, 0x7820201F, bRsRn .steorh⟩,
  ⟨0xFFE0FC1F, 0xB820201F, bRsRn .steorW⟩,
  ⟨0xFFE0FC1F, 0xF820201F, bRsRn .steorX⟩,
  ⟨0xFFE0FC1F, 0x3860201F, bRsRn .steorlb⟩,
  ⟨0xFFE0FC1F, 0x7860201F, bRsRn .steorlh⟩,
  ⟨0xFFE0FC1F, 0xB860201F, bRsRn .steorlW⟩,
  ⟨0xFFE0FC1F, 0xF860201F, bRsRn .steorlX⟩]

/-- Rows 96 to 119 of the table, counted from 0. -/
noncomputable def rows4 : List Row := [
  ⟨0xFFE0FC1F, 0x3820301F, bRsRn .stsetb⟩,
  ⟨0xFFE0FC1F, 0x7820301F, bRsRn .stseth⟩,
  ⟨0xFFE0FC1F, 0xB820301F, bRsRn .stsetW⟩,
  ⟨0xFFE0FC1F, 0xF820301F, bRsRn .stsetX⟩,
  ⟨0xFFE0FC1F, 0x3860301F, bRsRn .stsetlb⟩,
  ⟨0xFFE0FC1F, 0x7860301F, bRsRn .stsetlh⟩,
  ⟨0xFFE0FC1F, 0xB860301F, bRsRn .stsetlW⟩,
  ⟨0xFFE0FC1F, 0xF860301F, bRsRn .stsetlX⟩,
  ⟨0xFFE0FC1F, 0x3820401F, bRsRn .stsmaxb⟩,
  ⟨0xFFE0FC1F, 0x7820401F, bRsRn .stsmaxh⟩,
  ⟨0xFFE0FC1F, 0xB820401F, bRsRn .stsmaxW⟩,
  ⟨0xFFE0FC1F, 0xF820401F, bRsRn .stsmaxX⟩,
  ⟨0xFFE0FC1F, 0x3860401F, bRsRn .stsmaxlb⟩,
  ⟨0xFFE0FC1F, 0x7860401F, bRsRn .stsmaxlh⟩,
  ⟨0xFFE0FC1F, 0xB860401F, bRsRn .stsmaxlW⟩,
  ⟨0xFFE0FC1F, 0xF860401F, bRsRn .stsmaxlX⟩,
  ⟨0xFFE0FC1F, 0x3820501F, bRsRn .stsminb⟩,
  ⟨0xFFE0FC1F, 0x7820501F, bRsRn .stsminh⟩,
  ⟨0xFFE0FC1F, 0xB820501F, bRsRn .stsminW⟩,
  ⟨0xFFE0FC1F, 0xF820501F, bRsRn .stsminX⟩,
  ⟨0xFFE0FC1F, 0x3860501F, bRsRn .stsminlb⟩,
  ⟨0xFFE0FC1F, 0x7860501F, bRsRn .stsminlh⟩,
  ⟨0xFFE0FC1F, 0xB860501F, bRsRn .stsminlW⟩,
  ⟨0xFFE0FC1F, 0xF860501F, bRsRn .stsminlX⟩]

/-- Rows 120 to 143 of the table, counted from 0. -/
noncomputable def rows5 : List Row := [
  ⟨0xFFE0FC1F, 0x3820601F, bRsRn .stumaxb⟩,
  ⟨0xFFE0FC1F, 0x7820601F, bRsRn .stumaxh⟩,
  ⟨0xFFE0FC1F, 0xB820601F, bRsRn .stumaxW⟩,
  ⟨0xFFE0FC1F, 0xF820601F, bRsRn .stumaxX⟩,
  ⟨0xFFE0FC1F, 0x3860601F, bRsRn .stumaxlb⟩,
  ⟨0xFFE0FC1F, 0x7860601F, bRsRn .stumaxlh⟩,
  ⟨0xFFE0FC1F, 0xB860601F, bRsRn .stumaxlW⟩,
  ⟨0xFFE0FC1F, 0xF860601F, bRsRn .stumaxlX⟩,
  ⟨0xFFE0FC1F, 0x3820701F, bRsRn .stuminb⟩,
  ⟨0xFFE0FC1F, 0x7820701F, bRsRn .stuminh⟩,
  ⟨0xFFE0FC1F, 0xB820701F, bRsRn .stuminW⟩,
  ⟨0xFFE0FC1F, 0xF820701F, bRsRn .stuminX⟩,
  ⟨0xFFE0FC1F, 0x3860701F, bRsRn .stuminlb⟩,
  ⟨0xFFE0FC1F, 0x7860701F, bRsRn .stuminlh⟩,
  ⟨0xFFE0FC1F, 0xB860701F, bRsRn .stuminlW⟩,
  ⟨0xFFE0FC1F, 0xF860701F, bRsRn .stuminlX⟩,
  ⟨0xFFE0FC00, 0x38200000, bRsRtRn .ldaddb⟩,
  ⟨0xFFE0FC00, 0x78200000, bRsRtRn .ldaddh⟩,
  ⟨0xFFE0FC00, 0xB8200000, bRsRtRn .ldaddW⟩,
  ⟨0xFFE0FC00, 0xF8200000, bRsRtRn .ldaddX⟩,
  ⟨0xFFE0FC00, 0x38600000, bRsRtRn .ldaddlb⟩,
  ⟨0xFFE0FC00, 0x78600000, bRsRtRn .ldaddlh⟩,
  ⟨0xFFE0FC00, 0xB8600000, bRsRtRn .ldaddlW⟩,
  ⟨0xFFE0FC00, 0xF8600000, bRsRtRn .ldaddlX⟩]

/-- Rows 144 to 167 of the table, counted from 0. -/
noncomputable def rows6 : List Row := [
  ⟨0xFFE0FC00, 0x38A00000, bRsRtRn .ldaddab⟩,
  ⟨0xFFE0FC00, 0x78A00000, bRsRtRn .ldaddah⟩,
  ⟨0xFFE0FC00, 0xB8A00000, bRsRtRn .ldaddaW⟩,
  ⟨0xFFE0FC00, 0xF8A00000, bRsRtRn .ldaddaX⟩,
  ⟨0xFFE0FC00, 0x38E00000, bRsRtRn .ldaddalb⟩,
  ⟨0xFFE0FC00, 0x78E00000, bRsRtRn .ldaddalh⟩,
  ⟨0xFFE0FC00, 0xB8E00000, bRsRtRn .ldaddalW⟩,
  ⟨0xFFE0FC00, 0xF8E00000, bRsRtRn .ldaddalX⟩,
  ⟨0xFFE0FC00, 0x38201000, bRsRtRn .ldclrb⟩,
  ⟨0xFFE0FC00, 0x78201000, bRsRtRn .ldclrh⟩,
  ⟨0xFFE0FC00, 0xB8201000, bRsRtRn .ldclrW⟩,
  ⟨0xFFE0FC00, 0xF8201000, bRsRtRn .ldclrX⟩,
  ⟨0xFFE0FC00, 0x38601000, bRsRtRn .ldclrlb⟩,
  ⟨0xFFE0FC00, 0x78601000, bRsRtRn .ldclrlh⟩,
  ⟨0xFFE0FC00, 0xB8601000, bRsRtRn .ldclrlW⟩,
  ⟨0xFFE0FC00, 0xF8601000, bRsRtRn .ldclrlX⟩,
  ⟨0xFFE0FC00, 0x38A01000, bRsRtRn .ldclrab⟩,
  ⟨0xFFE0FC00, 0x78A01000, bRsRtRn .ldclrah⟩,
  ⟨0xFFE0FC00, 0xB8A01000, bRsRtRn .ldclraW⟩,
  ⟨0xFFE0FC00, 0xF8A01000, bRsRtRn .ldclraX⟩,
  ⟨0xFFE0FC00, 0x38E01000, bRsRtRn .ldclralb⟩,
  ⟨0xFFE0FC00, 0x78E01000, bRsRtRn .ldclralh⟩,
  ⟨0xFFE0FC00, 0xB8E01000, bRsRtRn .ldclralW⟩,
  ⟨0xFFE0FC00, 0xF8E01000, bRsRtRn .ldclralX⟩]

/-- Rows 168 to 191 of the table, counted from 0. -/
noncomputable def rows7 : List Row := [
  ⟨0xFFE0FC00, 0x38202000, bRsRtRn .ldeorb⟩,
  ⟨0xFFE0FC00, 0x78202000, bRsRtRn .ldeorh⟩,
  ⟨0xFFE0FC00, 0xB8202000, bRsRtRn .ldeorW⟩,
  ⟨0xFFE0FC00, 0xF8202000, bRsRtRn .ldeorX⟩,
  ⟨0xFFE0FC00, 0x38602000, bRsRtRn .ldeorlb⟩,
  ⟨0xFFE0FC00, 0x78602000, bRsRtRn .ldeorlh⟩,
  ⟨0xFFE0FC00, 0xB8602000, bRsRtRn .ldeorlW⟩,
  ⟨0xFFE0FC00, 0xF8602000, bRsRtRn .ldeorlX⟩,
  ⟨0xFFE0FC00, 0x38A02000, bRsRtRn .ldeorab⟩,
  ⟨0xFFE0FC00, 0x78A02000, bRsRtRn .ldeorah⟩,
  ⟨0xFFE0FC00, 0xB8A02000, bRsRtRn .ldeoraW⟩,
  ⟨0xFFE0FC00, 0xF8A02000, bRsRtRn .ldeoraX⟩,
  ⟨0xFFE0FC00, 0x38E02000, bRsRtRn .ldeoralb⟩,
  ⟨0xFFE0FC00, 0x78E02000, bRsRtRn .ldeoralh⟩,
  ⟨0xFFE0FC00, 0xB8E02000, bRsRtRn .ldeoralW⟩,
  ⟨0xFFE0FC00, 0xF8E02000, bRsRtRn .ldeoralX⟩,
  ⟨0xFFE0FC00, 0x38203000, bRsRtRn .ldsetb⟩,
  ⟨0xFFE0FC00, 0x78203000, bRsRtRn .ldseth⟩,
  ⟨0xFFE0FC00, 0xB8203000, bRsRtRn .ldsetW⟩,
  ⟨0xFFE0FC00, 0xF8203000, bRsRtRn .ldsetX⟩,
  ⟨0xFFE0FC00, 0x38603000, bRsRtRn .ldsetlb⟩,
  ⟨0xFFE0FC00, 0x78603000, bRsRtRn .ldsetlh⟩,
  ⟨0xFFE0FC00, 0xB8603000, bRsRtRn .ldsetlW⟩,
  ⟨0xFFE0FC00, 0xF8603000, bRsRtRn .ldsetlX⟩]

/-- Rows 192 to 215 of the table, counted from 0. -/
noncomputable def rows8 : List Row := [
  ⟨0xFFE0FC00, 0x38A03000, bRsRtRn .ldsetab⟩,
  ⟨0xFFE0FC00, 0x78A03000, bRsRtRn .ldsetah⟩,
  ⟨0xFFE0FC00, 0xB8A03000, bRsRtRn .ldsetaW⟩,
  ⟨0xFFE0FC00, 0xF8A03000, bRsRtRn .ldsetaX⟩,
  ⟨0xFFE0FC00, 0x38E03000, bRsRtRn .ldsetalb⟩,
  ⟨0xFFE0FC00, 0x78E03000, bRsRtRn .ldsetalh⟩,
  ⟨0xFFE0FC00, 0xB8E03000, bRsRtRn .ldsetalW⟩,
  ⟨0xFFE0FC00, 0xF8E03000, bRsRtRn .ldsetalX⟩,
  ⟨0xFFE0FC00, 0x38204000, bRsRtRn .ldsmaxb⟩,
  ⟨0xFFE0FC00, 0x78204000, bRsRtRn .ldsmaxh⟩,
  ⟨0xFFE0FC00, 0xB8204000, bRsRtRn .ldsmaxW⟩,
  ⟨0xFFE0FC00, 0xF8204000, bRsRtRn .ldsmaxX⟩,
  ⟨0xFFE0FC00, 0x38604000, bRsRtRn .ldsmaxlb⟩,
  ⟨0xFFE0FC00, 0x78604000, bRsRtRn .ldsmaxlh⟩,
  ⟨0xFFE0FC00, 0xB8604000, bRsRtRn .ldsmaxlW⟩,
  ⟨0xFFE0FC00, 0xF8604000, bRsRtRn .ldsmaxlX⟩,
  ⟨0xFFE0FC00, 0x38A04000, bRsRtRn .ldsmaxab⟩,
  ⟨0xFFE0FC00, 0x78A04000, bRsRtRn .ldsmaxah⟩,
  ⟨0xFFE0FC00, 0xB8A04000, bRsRtRn .ldsmaxaW⟩,
  ⟨0xFFE0FC00, 0xF8A04000, bRsRtRn .ldsmaxaX⟩,
  ⟨0xFFE0FC00, 0x38E04000, bRsRtRn .ldsmaxalb⟩,
  ⟨0xFFE0FC00, 0x78E04000, bRsRtRn .ldsmaxalh⟩,
  ⟨0xFFE0FC00, 0xB8E04000, bRsRtRn .ldsmaxalW⟩,
  ⟨0xFFE0FC00, 0xF8E04000, bRsRtRn .ldsmaxalX⟩]

/-- Rows 216 to 239 of the table, counted from 0. -/
noncomputable def rows9 : List Row := [
  ⟨0xFFE0FC00, 0x38205000, bRsRtRn .ldsminb⟩,
  ⟨0xFFE0FC00, 0x78205000, bRsRtRn .ldsminh⟩,
  ⟨0xFFE0FC00, 0xB8205000, bRsRtRn .ldsminW⟩,
  ⟨0xFFE0FC00, 0xF8205000, bRsRtRn .ldsminX⟩,
  ⟨0xFFE0FC00, 0x38605000, bRsRtRn .ldsminlb⟩,
  ⟨0xFFE0FC00, 0x78605000, bRsRtRn .ldsminlh⟩,
  ⟨0xFFE0FC00, 0xB8605000, bRsRtRn .ldsminlW⟩,
  ⟨0xFFE0FC00, 0xF8605000, bRsRtRn .ldsminlX⟩,
  ⟨0xFFE0FC00, 0x38A05000, bRsRtRn .ldsminab⟩,
  ⟨0xFFE0FC00, 0x78A05000, bRsRtRn .ldsminah⟩,
  ⟨0xFFE0FC00, 0xB8A05000, bRsRtRn .ldsminaW⟩,
  ⟨0xFFE0FC00, 0xF8A05000, bRsRtRn .ldsminaX⟩,
  ⟨0xFFE0FC00, 0x38E05000, bRsRtRn .ldsminalb⟩,
  ⟨0xFFE0FC00, 0x78E05000, bRsRtRn .ldsminalh⟩,
  ⟨0xFFE0FC00, 0xB8E05000, bRsRtRn .ldsminalW⟩,
  ⟨0xFFE0FC00, 0xF8E05000, bRsRtRn .ldsminalX⟩,
  ⟨0xFFE0FC00, 0x38206000, bRsRtRn .ldumaxb⟩,
  ⟨0xFFE0FC00, 0x78206000, bRsRtRn .ldumaxh⟩,
  ⟨0xFFE0FC00, 0xB8206000, bRsRtRn .ldumaxW⟩,
  ⟨0xFFE0FC00, 0xF8206000, bRsRtRn .ldumaxX⟩,
  ⟨0xFFE0FC00, 0x38606000, bRsRtRn .ldumaxlb⟩,
  ⟨0xFFE0FC00, 0x78606000, bRsRtRn .ldumaxlh⟩,
  ⟨0xFFE0FC00, 0xB8606000, bRsRtRn .ldumaxlW⟩,
  ⟨0xFFE0FC00, 0xF8606000, bRsRtRn .ldumaxlX⟩]

/-- Rows 240 to 263 of the table, counted from 0. -/
noncomputable def rows10 : List Row := [
  ⟨0xFFE0FC00, 0x38A06000, bRsRtRn .ldumaxab⟩,
  ⟨0xFFE0FC00, 0x78A06000, bRsRtRn .ldumaxah⟩,
  ⟨0xFFE0FC00, 0xB8A06000, bRsRtRn .ldumaxaW⟩,
  ⟨0xFFE0FC00, 0xF8A06000, bRsRtRn .ldumaxaX⟩,
  ⟨0xFFE0FC00, 0x38E06000, bRsRtRn .ldumaxalb⟩,
  ⟨0xFFE0FC00, 0x78E06000, bRsRtRn .ldumaxalh⟩,
  ⟨0xFFE0FC00, 0xB8E06000, bRsRtRn .ldumaxalW⟩,
  ⟨0xFFE0FC00, 0xF8E06000, bRsRtRn .ldumaxalX⟩,
  ⟨0xFFE0FC00, 0x38207000, bRsRtRn .lduminb⟩,
  ⟨0xFFE0FC00, 0x78207000, bRsRtRn .lduminh⟩,
  ⟨0xFFE0FC00, 0xB8207000, bRsRtRn .lduminW⟩,
  ⟨0xFFE0FC00, 0xF8207000, bRsRtRn .lduminX⟩,
  ⟨0xFFE0FC00, 0x38607000, bRsRtRn .lduminlb⟩,
  ⟨0xFFE0FC00, 0x78607000, bRsRtRn .lduminlh⟩,
  ⟨0xFFE0FC00, 0xB8607000, bRsRtRn .lduminlW⟩,
  ⟨0xFFE0FC00, 0xF8607000, bRsRtRn .lduminlX⟩,
  ⟨0xFFE0FC00, 0x38A07000, bRsRtRn .lduminab⟩,
  ⟨0xFFE0FC00, 0x78A07000, bRsRtRn .lduminah⟩,
  ⟨0xFFE0FC00, 0xB8A07000, bRsRtRn .lduminaW⟩,
  ⟨0xFFE0FC00, 0xF8A07000, bRsRtRn .lduminaX⟩,
  ⟨0xFFE0FC00, 0x38E07000, bRsRtRn .lduminalb⟩,
  ⟨0xFFE0FC00, 0x78E07000, bRsRtRn .lduminalh⟩,
  ⟨0xFFE0FC00, 0xB8E07000, bRsRtRn .lduminalW⟩,
  ⟨0xFFE0FC00, 0xF8E07000, bRsRtRn .lduminalX⟩]

/-- Rows 264 to 283 of the table, counted from 0. -/
noncomputable def rows11 : List Row := [
  ⟨0xFFE0FC00, 0x38208000, bRsRtRn .swpb⟩,
  ⟨0xFFE0FC00, 0x78208000, bRsRtRn .swph⟩,
  ⟨0xFFE0FC00, 0xB8208000, bRsRtRn .swpW⟩,
  ⟨0xFFE0FC00, 0xF8208000, bRsRtRn .swpX⟩,
  ⟨0xFFE0FC00, 0x38608000, bRsRtRn .swplb⟩,
  ⟨0xFFE0FC00, 0x78608000, bRsRtRn .swplh⟩,
  ⟨0xFFE0FC00, 0xB8608000, bRsRtRn .swplW⟩,
  ⟨0xFFE0FC00, 0xF8608000, bRsRtRn .swplX⟩,
  ⟨0xFFE0FC00, 0x38A08000, bRsRtRn .swpab⟩,
  ⟨0xFFE0FC00, 0x78A08000, bRsRtRn .swpah⟩,
  ⟨0xFFE0FC00, 0xB8A08000, bRsRtRn .swpaW⟩,
  ⟨0xFFE0FC00, 0xF8A08000, bRsRtRn .swpaX⟩,
  ⟨0xFFE0FC00, 0x38E08000, bRsRtRn .swpalb⟩,
  ⟨0xFFE0FC00, 0x78E08000, bRsRtRn .swpalh⟩,
  ⟨0xFFE0FC00, 0xB8E08000, bRsRtRn .swpalW⟩,
  ⟨0xFFE0FC00, 0xF8E08000, bRsRtRn .swpalX⟩,
  ⟨0xFFC00000, 0xF9800000, bPrfmImm .prfmImm⟩,
  ⟨0xFFE00C00, 0xF8800000, bPrfum .prfum⟩,
  ⟨0xFFE00C00, 0xF8A00800, bPrfmReg .prfmReg⟩,
  ⟨0xFF000000, 0xD8000000, bPrfmLit .prfmLit⟩]

/-- The whole table in its order (R261). -/
noncomputable def rows : List Row :=
  rows0 ++ rows1 ++ rows2 ++ rows3 ++ rows4 ++ rows5 ++ rows6 ++ rows7 ++ rows8 ++ rows9 ++ rows10 ++ rows11

/-- A word of the exclusive format: bits [29:24] are `0b001000`, and `o2`, `o1` name a Load- or
Store-Exclusive, `CASP` or `CAS` (R270). A word of it that no row selects has a should-be-one bit
0 (R275 (c)). -/
def isExclusiveFormat (w : Ins) : Bool :=
  w.extractLsb' 24 6 == 0b001000 && (w.extractLsb' 23 1 == 0 || w.extractLsb' 21 1 == 1)

/-- Decoding of one instruction word: the first row that selects it (R261). -/
noncomputable def decodeWord (w : Ins) : Except DecodeRefusal Instr :=
  match rows.find? (fun r => r.selects w) with
  | some r => .ok (r.build w)
  | none => if isExclusiveFormat w then .error .shouldBeOne else .error .noRow

/-- The word whose bytes are stored in little-endian order (R262). -/
def wordOfBytes (b0 b1 b2 b3 : Byte) : Ins := b3 ++ b2 ++ b1 ++ b0

/-- Decoding of the instruction at the head of a list of bytes, with the bytes left (R262). -/
noncomputable def decode : List Byte → Except DecodeRefusal (Instr × List Byte)
  | b0 :: b1 :: b2 :: b3 :: rest =>
    match decodeWord (wordOfBytes b0 b1 b2 b3) with
    | .ok i => .ok (i, rest)
    | .error r => .error r
  | _ => .error .truncated

/-- The four bytes of a word as the hardware stores them (R262). -/
def wordBytes (w : Ins) : List Byte :=
  [w.extractLsb' 0 8, w.extractLsb' 8 8, w.extractLsb' 16 8, w.extractLsb' 24 8]

/-- The instruction the decoder reads from the low `nbits` bits of `w`, the bits above 0. -/
noncomputable def decodeTableWord (nbits w : Nat) : Option Instr :=
  match decode (wordBytes (BitVec.ofNat 32 (w % 2 ^ nbits))) with
  | .ok (i, _) => some i
  | .error _ => none

/-- Two registers after 22 fixed bits: `Rn` and the low field (R269, R270). -/
def encTwo (hi : BitVec 22) (rn low : Reg) : Ins := hi ++ rn ++ low

/-- `Rs`, six fixed bits, `Rn` and `Rt` after 11 fixed bits (R270, R271). -/
def encThree (hi : BitVec 11) (rs : Reg) (mid : BitVec 6) (rn rt : Reg) : Ins :=
  hi ++ rs ++ mid ++ rn ++ rt

/-- A system register move (R267). -/
def encReg (hi : BitVec 12) (e : SysEnc) (rt : Reg) : Ins :=
  hi ++ e.o0 ++ e.op1 ++ e.crn ++ e.crm ++ e.op2 ++ rt

/-- The word of an instruction, field by field from the formats of R263 to R273. -/
def encode (i : Instr) : Ins :=
  match i with
  | .wfe => 0xD503205F#32
  | .wfi => 0xD503207F#32
  | .esb => 0xD503221F#32
  | .clrex crm => 0xD5033#20 ++ crm ++ 0x5F#8
  | .isb crm => 0xD5033#20 ++ crm ++ 0xDF#8
  | .ramindex rt => 0b110101010000111011110000000#27 ++ rt
  | .dcZva rt => 0b110101010000101101110100001#27 ++ rt
  | .dcCisw rt => 0b110101010000100001111110010#27 ++ rt
  | .dcIvac rt => 0b110101010000100001110110001#27 ++ rt
  | .sys op1 crn crm op2 rt => 0b1101010100001#13 ++ op1 ++ crn ++ crm ++ op2 ++ rt
  | .mrs rt e => encReg 0b110101010011#12 e rt
  | .msr e rt => encReg 0b110101010001#12 e rt
  | .bl imm26 => 0b100101#6 ++ imm26
  | .blr rn => encTwo 0b1101011000111111000000#22 rn 0b00000#5
  | .blraaz rn => encTwo 0b1101011000111111000010#22 rn 0b11111#5
  | .blrabz rn => encTwo 0b1101011000111111000011#22 rn 0b11111#5
  | .blraa rn rm => encTwo 0b1101011100111111000010#22 rn rm
  | .blrab rn rm => encTwo 0b1101011100111111000011#22 rn rm
  | .ret rn => encTwo 0b1101011001011111000000#22 rn 0b00000#5
  | .retaa => 0xD65F0BFF#32
  | .retab => 0xD65F0FFF#32
  | .eret => 0xD69F03E0#32
  | .eretaa => 0xD69F0BFF#32
  | .eretab => 0xD69F0FFF#32
  | .ldxrb rt rn => encTwo 0b0000100001011111011111#22 rn rt
  | .ldxrh rt rn => encTwo 0b0100100001011111011111#22 rn rt
  | .ldxrW rt rn => encTwo 0b1000100001011111011111#22 rn rt
  | .ldxrX rt rn => encTwo 0b1100100001011111011111#22 rn rt
  | .ldxpW rt rt2 rn => 0b10001000011111110#17 ++ rt2 ++ rn ++ rt
  | .ldxpX rt rt2 rn => 0b11001000011111110#17 ++ rt2 ++ rn ++ rt
  | .ldaxrb rt rn => encTwo 0b0000100001011111111111#22 rn rt
  | .ldaxrh rt rn => encTwo 0b0100100001011111111111#22 rn rt
  | .ldaxrW rt rn => encTwo 0b1000100001011111111111#22 rn rt
  | .ldaxrX rt rn => encTwo 0b1100100001011111111111#22 rn rt
  | .ldaxpW rt rt2 rn => 0b10001000011111111#17 ++ rt2 ++ rn ++ rt
  | .ldaxpX rt rt2 rn => 0b11001000011111111#17 ++ rt2 ++ rn ++ rt
  | .stxrb rs rt rn => encThree 0b00001000000#11 rs 0b011111#6 rn rt
  | .stxrh rs rt rn => encThree 0b01001000000#11 rs 0b011111#6 rn rt
  | .stxrW rs rt rn => encThree 0b10001000000#11 rs 0b011111#6 rn rt
  | .stxrX rs rt rn => encThree 0b11001000000#11 rs 0b011111#6 rn rt
  | .stxpW rs rt rt2 rn => 0b10001000001#11 ++ rs ++ 0b0#1 ++ rt2 ++ rn ++ rt
  | .stxpX rs rt rt2 rn => 0b11001000001#11 ++ rs ++ 0b0#1 ++ rt2 ++ rn ++ rt
  | .stlxrb rs rt rn => encThree 0b00001000000#11 rs 0b111111#6 rn rt
  | .stlxrh rs rt rn => encThree 0b01001000000#11 rs 0b111111#6 rn rt
  | .stlxrW rs rt rn => encThree 0b10001000000#11 rs 0b111111#6 rn rt
  | .stlxrX rs rt rn => encThree 0b11001000000#11 rs 0b111111#6 rn rt
  | .stlxpW rs rt rt2 rn => 0b10001000001#11 ++ rs ++ 0b1#1 ++ rt2 ++ rn ++ rt
  | .stlxpX rs rt rt2 rn => 0b11001000001#11 ++ rs ++ 0b1#1 ++ rt2 ++ rn ++ rt
  | .casW rs rt rn => encThree 0b10001000101#11 rs 0b011111#6 rn rt
  | .caslW rs rt rn => encThree 0b10001000101#11 rs 0b111111#6 rn rt
  | .casaW rs rt rn => encThree 0b10001000111#11 rs 0b011111#6 rn rt
  | .casalW rs rt rn => encThree 0b10001000111#11 rs 0b111111#6 rn rt
  | .casX rs rt rn => encThree 0b11001000101#11 rs 0b011111#6 rn rt
  | .caslX rs rt rn => encThree 0b11001000101#11 rs 0b111111#6 rn rt
  | .casaX rs rt rn => encThree 0b11001000111#11 rs 0b011111#6 rn rt
  | .casalX rs rt rn => encThree 0b11001000111#11 rs 0b111111#6 rn rt
  | .casb rs rt rn => encThree 0b00001000101#11 rs 0b011111#6 rn rt
  | .caslb rs rt rn => encThree 0b00001000101#11 rs 0b111111#6 rn rt
  | .casab rs rt rn => encThree 0b00001000111#11 rs 0b011111#6 rn rt
  | .casalb rs rt rn => encThree 0b00001000111#11 rs 0b111111#6 rn rt
  | .cash rs rt rn => encThree 0b01001000101#11 rs 0b011111#6 rn rt
  | .caslh rs rt rn => encThree 0b01001000101#11 rs 0b111111#6 rn rt
  | .casah rs rt rn => encThree 0b01001000111#11 rs 0b011111#6 rn rt
  | .casalh rs rt rn => encThree 0b01001000111#11 rs 0b111111#6 rn rt
  | .caspW rs rt rn => encThree 0b00001000001#11 rs 0b011111#6 rn rt
  | .casplW rs rt rn => encThree 0b00001000001#11 rs 0b111111#6 rn rt
  | .caspaW rs rt rn => encThree 0b00001000011#11 rs 0b011111#6 rn rt
  | .caspalW rs rt rn => encThree 0b00001000011#11 rs 0b111111#6 rn rt
  | .caspX rs rt rn => encThree 0b01001000001#11 rs 0b011111#6 rn rt
  | .casplX rs rt rn => encThree 0b01001000001#11 rs 0b111111#6 rn rt
  | .caspaX rs rt rn => encThree 0b01001000011#11 rs 0b011111#6 rn rt
  | .caspalX rs rt rn => encThree 0b01001000011#11 rs 0b111111#6 rn rt
  | .staddb rs rn => encThree 0b00111000001#11 rs 0b000000#6 rn 31
  | .staddh rs rn => encThree 0b01111000001#11 rs 0b000000#6 rn 31
  | .staddW rs rn => encThree 0b10111000001#11 rs 0b000000#6 rn 31
  | .staddX rs rn => encThree 0b11111000001#11 rs 0b000000#6 rn 31
  | .staddlb rs rn => encThree 0b00111000011#11 rs 0b000000#6 rn 31
  | .staddlh rs rn => encThree 0b01111000011#11 rs 0b000000#6 rn 31
  | .staddlW rs rn => encThree 0b10111000011#11 rs 0b000000#6 rn 31
  | .staddlX rs rn => encThree 0b11111000011#11 rs 0b000000#6 rn 31
  | .stclrb rs rn => encThree 0b00111000001#11 rs 0b000100#6 rn 31
  | .stclrh rs rn => encThree 0b01111000001#11 rs 0b000100#6 rn 31
  | .stclrW rs rn => encThree 0b10111000001#11 rs 0b000100#6 rn 31
  | .stclrX rs rn => encThree 0b11111000001#11 rs 0b000100#6 rn 31
  | .stclrlb rs rn => encThree 0b00111000011#11 rs 0b000100#6 rn 31
  | .stclrlh rs rn => encThree 0b01111000011#11 rs 0b000100#6 rn 31
  | .stclrlW rs rn => encThree 0b10111000011#11 rs 0b000100#6 rn 31
  | .stclrlX rs rn => encThree 0b11111000011#11 rs 0b000100#6 rn 31
  | .steorb rs rn => encThree 0b00111000001#11 rs 0b001000#6 rn 31
  | .steorh rs rn => encThree 0b01111000001#11 rs 0b001000#6 rn 31
  | .steorW rs rn => encThree 0b10111000001#11 rs 0b001000#6 rn 31
  | .steorX rs rn => encThree 0b11111000001#11 rs 0b001000#6 rn 31
  | .steorlb rs rn => encThree 0b00111000011#11 rs 0b001000#6 rn 31
  | .steorlh rs rn => encThree 0b01111000011#11 rs 0b001000#6 rn 31
  | .steorlW rs rn => encThree 0b10111000011#11 rs 0b001000#6 rn 31
  | .steorlX rs rn => encThree 0b11111000011#11 rs 0b001000#6 rn 31
  | .stsetb rs rn => encThree 0b00111000001#11 rs 0b001100#6 rn 31
  | .stseth rs rn => encThree 0b01111000001#11 rs 0b001100#6 rn 31
  | .stsetW rs rn => encThree 0b10111000001#11 rs 0b001100#6 rn 31
  | .stsetX rs rn => encThree 0b11111000001#11 rs 0b001100#6 rn 31
  | .stsetlb rs rn => encThree 0b00111000011#11 rs 0b001100#6 rn 31
  | .stsetlh rs rn => encThree 0b01111000011#11 rs 0b001100#6 rn 31
  | .stsetlW rs rn => encThree 0b10111000011#11 rs 0b001100#6 rn 31
  | .stsetlX rs rn => encThree 0b11111000011#11 rs 0b001100#6 rn 31
  | .stsmaxb rs rn => encThree 0b00111000001#11 rs 0b010000#6 rn 31
  | .stsmaxh rs rn => encThree 0b01111000001#11 rs 0b010000#6 rn 31
  | .stsmaxW rs rn => encThree 0b10111000001#11 rs 0b010000#6 rn 31
  | .stsmaxX rs rn => encThree 0b11111000001#11 rs 0b010000#6 rn 31
  | .stsmaxlb rs rn => encThree 0b00111000011#11 rs 0b010000#6 rn 31
  | .stsmaxlh rs rn => encThree 0b01111000011#11 rs 0b010000#6 rn 31
  | .stsmaxlW rs rn => encThree 0b10111000011#11 rs 0b010000#6 rn 31
  | .stsmaxlX rs rn => encThree 0b11111000011#11 rs 0b010000#6 rn 31
  | .stsminb rs rn => encThree 0b00111000001#11 rs 0b010100#6 rn 31
  | .stsminh rs rn => encThree 0b01111000001#11 rs 0b010100#6 rn 31
  | .stsminW rs rn => encThree 0b10111000001#11 rs 0b010100#6 rn 31
  | .stsminX rs rn => encThree 0b11111000001#11 rs 0b010100#6 rn 31
  | .stsminlb rs rn => encThree 0b00111000011#11 rs 0b010100#6 rn 31
  | .stsminlh rs rn => encThree 0b01111000011#11 rs 0b010100#6 rn 31
  | .stsminlW rs rn => encThree 0b10111000011#11 rs 0b010100#6 rn 31
  | .stsminlX rs rn => encThree 0b11111000011#11 rs 0b010100#6 rn 31
  | .stumaxb rs rn => encThree 0b00111000001#11 rs 0b011000#6 rn 31
  | .stumaxh rs rn => encThree 0b01111000001#11 rs 0b011000#6 rn 31
  | .stumaxW rs rn => encThree 0b10111000001#11 rs 0b011000#6 rn 31
  | .stumaxX rs rn => encThree 0b11111000001#11 rs 0b011000#6 rn 31
  | .stumaxlb rs rn => encThree 0b00111000011#11 rs 0b011000#6 rn 31
  | .stumaxlh rs rn => encThree 0b01111000011#11 rs 0b011000#6 rn 31
  | .stumaxlW rs rn => encThree 0b10111000011#11 rs 0b011000#6 rn 31
  | .stumaxlX rs rn => encThree 0b11111000011#11 rs 0b011000#6 rn 31
  | .stuminb rs rn => encThree 0b00111000001#11 rs 0b011100#6 rn 31
  | .stuminh rs rn => encThree 0b01111000001#11 rs 0b011100#6 rn 31
  | .stuminW rs rn => encThree 0b10111000001#11 rs 0b011100#6 rn 31
  | .stuminX rs rn => encThree 0b11111000001#11 rs 0b011100#6 rn 31
  | .stuminlb rs rn => encThree 0b00111000011#11 rs 0b011100#6 rn 31
  | .stuminlh rs rn => encThree 0b01111000011#11 rs 0b011100#6 rn 31
  | .stuminlW rs rn => encThree 0b10111000011#11 rs 0b011100#6 rn 31
  | .stuminlX rs rn => encThree 0b11111000011#11 rs 0b011100#6 rn 31
  | .ldaddb rs rt rn => encThree 0b00111000001#11 rs 0b000000#6 rn rt
  | .ldaddh rs rt rn => encThree 0b01111000001#11 rs 0b000000#6 rn rt
  | .ldaddW rs rt rn => encThree 0b10111000001#11 rs 0b000000#6 rn rt
  | .ldaddX rs rt rn => encThree 0b11111000001#11 rs 0b000000#6 rn rt
  | .ldaddlb rs rt rn => encThree 0b00111000011#11 rs 0b000000#6 rn rt
  | .ldaddlh rs rt rn => encThree 0b01111000011#11 rs 0b000000#6 rn rt
  | .ldaddlW rs rt rn => encThree 0b10111000011#11 rs 0b000000#6 rn rt
  | .ldaddlX rs rt rn => encThree 0b11111000011#11 rs 0b000000#6 rn rt
  | .ldaddab rs rt rn => encThree 0b00111000101#11 rs 0b000000#6 rn rt
  | .ldaddah rs rt rn => encThree 0b01111000101#11 rs 0b000000#6 rn rt
  | .ldaddaW rs rt rn => encThree 0b10111000101#11 rs 0b000000#6 rn rt
  | .ldaddaX rs rt rn => encThree 0b11111000101#11 rs 0b000000#6 rn rt
  | .ldaddalb rs rt rn => encThree 0b00111000111#11 rs 0b000000#6 rn rt
  | .ldaddalh rs rt rn => encThree 0b01111000111#11 rs 0b000000#6 rn rt
  | .ldaddalW rs rt rn => encThree 0b10111000111#11 rs 0b000000#6 rn rt
  | .ldaddalX rs rt rn => encThree 0b11111000111#11 rs 0b000000#6 rn rt
  | .ldclrb rs rt rn => encThree 0b00111000001#11 rs 0b000100#6 rn rt
  | .ldclrh rs rt rn => encThree 0b01111000001#11 rs 0b000100#6 rn rt
  | .ldclrW rs rt rn => encThree 0b10111000001#11 rs 0b000100#6 rn rt
  | .ldclrX rs rt rn => encThree 0b11111000001#11 rs 0b000100#6 rn rt
  | .ldclrlb rs rt rn => encThree 0b00111000011#11 rs 0b000100#6 rn rt
  | .ldclrlh rs rt rn => encThree 0b01111000011#11 rs 0b000100#6 rn rt
  | .ldclrlW rs rt rn => encThree 0b10111000011#11 rs 0b000100#6 rn rt
  | .ldclrlX rs rt rn => encThree 0b11111000011#11 rs 0b000100#6 rn rt
  | .ldclrab rs rt rn => encThree 0b00111000101#11 rs 0b000100#6 rn rt
  | .ldclrah rs rt rn => encThree 0b01111000101#11 rs 0b000100#6 rn rt
  | .ldclraW rs rt rn => encThree 0b10111000101#11 rs 0b000100#6 rn rt
  | .ldclraX rs rt rn => encThree 0b11111000101#11 rs 0b000100#6 rn rt
  | .ldclralb rs rt rn => encThree 0b00111000111#11 rs 0b000100#6 rn rt
  | .ldclralh rs rt rn => encThree 0b01111000111#11 rs 0b000100#6 rn rt
  | .ldclralW rs rt rn => encThree 0b10111000111#11 rs 0b000100#6 rn rt
  | .ldclralX rs rt rn => encThree 0b11111000111#11 rs 0b000100#6 rn rt
  | .ldeorb rs rt rn => encThree 0b00111000001#11 rs 0b001000#6 rn rt
  | .ldeorh rs rt rn => encThree 0b01111000001#11 rs 0b001000#6 rn rt
  | .ldeorW rs rt rn => encThree 0b10111000001#11 rs 0b001000#6 rn rt
  | .ldeorX rs rt rn => encThree 0b11111000001#11 rs 0b001000#6 rn rt
  | .ldeorlb rs rt rn => encThree 0b00111000011#11 rs 0b001000#6 rn rt
  | .ldeorlh rs rt rn => encThree 0b01111000011#11 rs 0b001000#6 rn rt
  | .ldeorlW rs rt rn => encThree 0b10111000011#11 rs 0b001000#6 rn rt
  | .ldeorlX rs rt rn => encThree 0b11111000011#11 rs 0b001000#6 rn rt
  | .ldeorab rs rt rn => encThree 0b00111000101#11 rs 0b001000#6 rn rt
  | .ldeorah rs rt rn => encThree 0b01111000101#11 rs 0b001000#6 rn rt
  | .ldeoraW rs rt rn => encThree 0b10111000101#11 rs 0b001000#6 rn rt
  | .ldeoraX rs rt rn => encThree 0b11111000101#11 rs 0b001000#6 rn rt
  | .ldeoralb rs rt rn => encThree 0b00111000111#11 rs 0b001000#6 rn rt
  | .ldeoralh rs rt rn => encThree 0b01111000111#11 rs 0b001000#6 rn rt
  | .ldeoralW rs rt rn => encThree 0b10111000111#11 rs 0b001000#6 rn rt
  | .ldeoralX rs rt rn => encThree 0b11111000111#11 rs 0b001000#6 rn rt
  | .ldsetb rs rt rn => encThree 0b00111000001#11 rs 0b001100#6 rn rt
  | .ldseth rs rt rn => encThree 0b01111000001#11 rs 0b001100#6 rn rt
  | .ldsetW rs rt rn => encThree 0b10111000001#11 rs 0b001100#6 rn rt
  | .ldsetX rs rt rn => encThree 0b11111000001#11 rs 0b001100#6 rn rt
  | .ldsetlb rs rt rn => encThree 0b00111000011#11 rs 0b001100#6 rn rt
  | .ldsetlh rs rt rn => encThree 0b01111000011#11 rs 0b001100#6 rn rt
  | .ldsetlW rs rt rn => encThree 0b10111000011#11 rs 0b001100#6 rn rt
  | .ldsetlX rs rt rn => encThree 0b11111000011#11 rs 0b001100#6 rn rt
  | .ldsetab rs rt rn => encThree 0b00111000101#11 rs 0b001100#6 rn rt
  | .ldsetah rs rt rn => encThree 0b01111000101#11 rs 0b001100#6 rn rt
  | .ldsetaW rs rt rn => encThree 0b10111000101#11 rs 0b001100#6 rn rt
  | .ldsetaX rs rt rn => encThree 0b11111000101#11 rs 0b001100#6 rn rt
  | .ldsetalb rs rt rn => encThree 0b00111000111#11 rs 0b001100#6 rn rt
  | .ldsetalh rs rt rn => encThree 0b01111000111#11 rs 0b001100#6 rn rt
  | .ldsetalW rs rt rn => encThree 0b10111000111#11 rs 0b001100#6 rn rt
  | .ldsetalX rs rt rn => encThree 0b11111000111#11 rs 0b001100#6 rn rt
  | .ldsmaxb rs rt rn => encThree 0b00111000001#11 rs 0b010000#6 rn rt
  | .ldsmaxh rs rt rn => encThree 0b01111000001#11 rs 0b010000#6 rn rt
  | .ldsmaxW rs rt rn => encThree 0b10111000001#11 rs 0b010000#6 rn rt
  | .ldsmaxX rs rt rn => encThree 0b11111000001#11 rs 0b010000#6 rn rt
  | .ldsmaxlb rs rt rn => encThree 0b00111000011#11 rs 0b010000#6 rn rt
  | .ldsmaxlh rs rt rn => encThree 0b01111000011#11 rs 0b010000#6 rn rt
  | .ldsmaxlW rs rt rn => encThree 0b10111000011#11 rs 0b010000#6 rn rt
  | .ldsmaxlX rs rt rn => encThree 0b11111000011#11 rs 0b010000#6 rn rt
  | .ldsmaxab rs rt rn => encThree 0b00111000101#11 rs 0b010000#6 rn rt
  | .ldsmaxah rs rt rn => encThree 0b01111000101#11 rs 0b010000#6 rn rt
  | .ldsmaxaW rs rt rn => encThree 0b10111000101#11 rs 0b010000#6 rn rt
  | .ldsmaxaX rs rt rn => encThree 0b11111000101#11 rs 0b010000#6 rn rt
  | .ldsmaxalb rs rt rn => encThree 0b00111000111#11 rs 0b010000#6 rn rt
  | .ldsmaxalh rs rt rn => encThree 0b01111000111#11 rs 0b010000#6 rn rt
  | .ldsmaxalW rs rt rn => encThree 0b10111000111#11 rs 0b010000#6 rn rt
  | .ldsmaxalX rs rt rn => encThree 0b11111000111#11 rs 0b010000#6 rn rt
  | .ldsminb rs rt rn => encThree 0b00111000001#11 rs 0b010100#6 rn rt
  | .ldsminh rs rt rn => encThree 0b01111000001#11 rs 0b010100#6 rn rt
  | .ldsminW rs rt rn => encThree 0b10111000001#11 rs 0b010100#6 rn rt
  | .ldsminX rs rt rn => encThree 0b11111000001#11 rs 0b010100#6 rn rt
  | .ldsminlb rs rt rn => encThree 0b00111000011#11 rs 0b010100#6 rn rt
  | .ldsminlh rs rt rn => encThree 0b01111000011#11 rs 0b010100#6 rn rt
  | .ldsminlW rs rt rn => encThree 0b10111000011#11 rs 0b010100#6 rn rt
  | .ldsminlX rs rt rn => encThree 0b11111000011#11 rs 0b010100#6 rn rt
  | .ldsminab rs rt rn => encThree 0b00111000101#11 rs 0b010100#6 rn rt
  | .ldsminah rs rt rn => encThree 0b01111000101#11 rs 0b010100#6 rn rt
  | .ldsminaW rs rt rn => encThree 0b10111000101#11 rs 0b010100#6 rn rt
  | .ldsminaX rs rt rn => encThree 0b11111000101#11 rs 0b010100#6 rn rt
  | .ldsminalb rs rt rn => encThree 0b00111000111#11 rs 0b010100#6 rn rt
  | .ldsminalh rs rt rn => encThree 0b01111000111#11 rs 0b010100#6 rn rt
  | .ldsminalW rs rt rn => encThree 0b10111000111#11 rs 0b010100#6 rn rt
  | .ldsminalX rs rt rn => encThree 0b11111000111#11 rs 0b010100#6 rn rt
  | .ldumaxb rs rt rn => encThree 0b00111000001#11 rs 0b011000#6 rn rt
  | .ldumaxh rs rt rn => encThree 0b01111000001#11 rs 0b011000#6 rn rt
  | .ldumaxW rs rt rn => encThree 0b10111000001#11 rs 0b011000#6 rn rt
  | .ldumaxX rs rt rn => encThree 0b11111000001#11 rs 0b011000#6 rn rt
  | .ldumaxlb rs rt rn => encThree 0b00111000011#11 rs 0b011000#6 rn rt
  | .ldumaxlh rs rt rn => encThree 0b01111000011#11 rs 0b011000#6 rn rt
  | .ldumaxlW rs rt rn => encThree 0b10111000011#11 rs 0b011000#6 rn rt
  | .ldumaxlX rs rt rn => encThree 0b11111000011#11 rs 0b011000#6 rn rt
  | .ldumaxab rs rt rn => encThree 0b00111000101#11 rs 0b011000#6 rn rt
  | .ldumaxah rs rt rn => encThree 0b01111000101#11 rs 0b011000#6 rn rt
  | .ldumaxaW rs rt rn => encThree 0b10111000101#11 rs 0b011000#6 rn rt
  | .ldumaxaX rs rt rn => encThree 0b11111000101#11 rs 0b011000#6 rn rt
  | .ldumaxalb rs rt rn => encThree 0b00111000111#11 rs 0b011000#6 rn rt
  | .ldumaxalh rs rt rn => encThree 0b01111000111#11 rs 0b011000#6 rn rt
  | .ldumaxalW rs rt rn => encThree 0b10111000111#11 rs 0b011000#6 rn rt
  | .ldumaxalX rs rt rn => encThree 0b11111000111#11 rs 0b011000#6 rn rt
  | .lduminb rs rt rn => encThree 0b00111000001#11 rs 0b011100#6 rn rt
  | .lduminh rs rt rn => encThree 0b01111000001#11 rs 0b011100#6 rn rt
  | .lduminW rs rt rn => encThree 0b10111000001#11 rs 0b011100#6 rn rt
  | .lduminX rs rt rn => encThree 0b11111000001#11 rs 0b011100#6 rn rt
  | .lduminlb rs rt rn => encThree 0b00111000011#11 rs 0b011100#6 rn rt
  | .lduminlh rs rt rn => encThree 0b01111000011#11 rs 0b011100#6 rn rt
  | .lduminlW rs rt rn => encThree 0b10111000011#11 rs 0b011100#6 rn rt
  | .lduminlX rs rt rn => encThree 0b11111000011#11 rs 0b011100#6 rn rt
  | .lduminab rs rt rn => encThree 0b00111000101#11 rs 0b011100#6 rn rt
  | .lduminah rs rt rn => encThree 0b01111000101#11 rs 0b011100#6 rn rt
  | .lduminaW rs rt rn => encThree 0b10111000101#11 rs 0b011100#6 rn rt
  | .lduminaX rs rt rn => encThree 0b11111000101#11 rs 0b011100#6 rn rt
  | .lduminalb rs rt rn => encThree 0b00111000111#11 rs 0b011100#6 rn rt
  | .lduminalh rs rt rn => encThree 0b01111000111#11 rs 0b011100#6 rn rt
  | .lduminalW rs rt rn => encThree 0b10111000111#11 rs 0b011100#6 rn rt
  | .lduminalX rs rt rn => encThree 0b11111000111#11 rs 0b011100#6 rn rt
  | .swpb rs rt rn => encThree 0b00111000001#11 rs 0b100000#6 rn rt
  | .swph rs rt rn => encThree 0b01111000001#11 rs 0b100000#6 rn rt
  | .swpW rs rt rn => encThree 0b10111000001#11 rs 0b100000#6 rn rt
  | .swpX rs rt rn => encThree 0b11111000001#11 rs 0b100000#6 rn rt
  | .swplb rs rt rn => encThree 0b00111000011#11 rs 0b100000#6 rn rt
  | .swplh rs rt rn => encThree 0b01111000011#11 rs 0b100000#6 rn rt
  | .swplW rs rt rn => encThree 0b10111000011#11 rs 0b100000#6 rn rt
  | .swplX rs rt rn => encThree 0b11111000011#11 rs 0b100000#6 rn rt
  | .swpab rs rt rn => encThree 0b00111000101#11 rs 0b100000#6 rn rt
  | .swpah rs rt rn => encThree 0b01111000101#11 rs 0b100000#6 rn rt
  | .swpaW rs rt rn => encThree 0b10111000101#11 rs 0b100000#6 rn rt
  | .swpaX rs rt rn => encThree 0b11111000101#11 rs 0b100000#6 rn rt
  | .swpalb rs rt rn => encThree 0b00111000111#11 rs 0b100000#6 rn rt
  | .swpalh rs rt rn => encThree 0b01111000111#11 rs 0b100000#6 rn rt
  | .swpalW rs rt rn => encThree 0b10111000111#11 rs 0b100000#6 rn rt
  | .swpalX rs rt rn => encThree 0b11111000111#11 rs 0b100000#6 rn rt
  | .prfmImm prfop rn imm12 => 0b1111100110#10 ++ imm12 ++ rn ++ prfop
  | .prfum prfop rn imm9 => 0b11111000100#11 ++ imm9 ++ 0b00#2 ++ rn ++ prfop
  | .prfmReg prfop rn rm option s => 0b11111000101#11 ++ rm ++ option ++ s ++ 0b10#2 ++ rn ++ prfop
  | .prfmLit prfop imm19 => 0b11011000#8 ++ imm19 ++ prfop

/-- The bytes of an instruction as they are stored (R262). -/
def encodeBytes (i : Instr) : List Byte := wordBytes (encode i)

end Sys2Proof
end

