-- ==== Sys2Proof/Config.lean ====
section
/-! DEFINITION. What an implementation and a platform fix (`Config`, plain data that a state
carries unchanged), and the free values: constants without a body, of which nothing can be proved,
for everything the spec leaves to a `draw`, to a lost table or to the Arm ARM. -/

namespace Sys2Proof

/-- `NUM_PMU_COUNTERS`: 6 or 20 (R13). -/
inductive PmuCounters where
  | six
  | twenty
  deriving DecidableEq, Repr, Inhabited

def PmuCounters.count (n : PmuCounters) : Nat :=
  match n with
  | .six => 6
  | .twenty => 20

/-- `L1D_SIZE` and `L1I_SIZE`: 32KB or 64KB (R13). -/
inductive L1Size where
  | kb32
  | kb64
  deriving DecidableEq, Repr, Inhabited

def L1Size.kb (z : L1Size) : Nat :=
  match z with
  | .kb32 => 32
  | .kb64 => 64

/-- `L2_SIZE`: 128KB, 256KB or 512KB (R13). -/
inductive L2Size where
  | kb128
  | kb256
  | kb512
  deriving DecidableEq, Repr, Inhabited

def L2Size.kb (z : L2Size) : Nat :=
  match z with
  | .kb128 => 128
  | .kb256 => 256
  | .kb512 => 512

/-- What one value of the four PBHA bits means to the system: any code, and whether the data of an
access is independent of it (R173, R178). -/
structure PbhaMeaning where
  code : Nat
  neutral : Bool
  deriving DecidableEq, Repr, Inhabited

/-- The numbers of TLB entries, which the spec has lost: the entries of the two L1 TLBs, the sets of
the two RAMs of the L2 TLB (R144; log entry 56). -/
structure TlbSizes where
  l1i : Nat
  l1d : Nat
  tcspSets : Nat
  tcmpSets : Nat
  deriving DecidableEq, Repr, Inhabited

/-- The parameters of 00_scope.md R13 and R16 and of 93_implementation_defined.md section 2. Every
statement about the machine holds for every value of them. -/
structure Config where
  /-- the instance number of this core, and how many cores of the cluster have a higher one: their
  sum and one more is `NUM_CORES`, so that the numbers run from 0 to `NUM_CORES - 1` (D5, R16) -/
  coreId : Nat
  coresAbove : Nat
  /-- the affinity field of `MPIDR_EL1` that shows the instance number (log entry 57) -/
  affinityField : Fin 4
  /-- the build options of R13 -/
  cacheProtection : Bool
  spePresent : Bool
  pmuCounters : PmuCounters
  cryptoPresent : Bool
  l1dSize : L1Size
  l1iSize : L1Size
  l2Size : L2Size
  elaPresent : Bool
  l2RamTiming : Nat
  tlbSizes : TlbSizes
  /-- the `GICCDISABLE` pin, sampled at reset (R500) -/
  gicDisablePin : Bool
  cpuBridgeSync : Bool
  /-- the interconnect performs atomic transactions (R215, D16) -/
  interconnectAtomics : Bool
  /-- the platform supplies an exclusive monitor for memory that is not Write-Back (R379) -/
  externalMonitor : Bool
  /-- external debug is authenticated (R555) -/
  debugAuthenticated : Bool
  /-- `RESET_VECTOR` (D8) -/
  resetVector : BitVec 40
  /-- `UTILITY_BUS_BASE` (D14), and whether the integrator maps the utility bus there, into the
  address space of the core (R255) -/
  utilityBusBase : BitVec 40
  utilityBusMapped : Bool
  /-- the 64KB page of the MPMM registers among those of the megabyte of a core without the page of
  its AMU, and the doublewords of `CPUPPMCR` and of `CPUMPMMCR` in it, the second among those the
  first leaves; the spec has lost them (R521; log entry 68) -/
  mpmmPage : Fin 15
  ppmcrPlace : Fin 8192
  mpmmcrPlace : Fin 8191
  /-- `RETENTION_TIMER` (D13): what `IMP_CPUPWRCTLR_EL1` holds of it after a reset -/
  retentionTimer : Word
  /-- `FPAC_IMPLEMENTED` (R356, U14) -/
  fpacImplemented : Bool
  /-- `SYSREG_ENC` (D7) -/
  sysregEnc : List (SysReg × SysEnc)
  /-- `IMP_ACCESS` at EL1 and at EL2: the `IMP_*` registers accessible there (R318) -/
  impAccessEl1 : List SysReg
  impAccessEl2 : List SysReg
  /-- the memory type of data accesses while translation is off (R142) -/
  mmuOffData : MemType
  /-- key ranges on which the platform's bus answers with an error (R161, R495) -/
  busErrors : List (Nat × Nat)
  /-- key ranges of devices, which must not be code (R186) -/
  deviceKeys : List (Nat × Nat)
  /-- `PBHA_MEANING`, by the value of the four bits (D6) -/
  pbhaMeaning : Vector PbhaMeaning 16
  /-- the depth of the trace FIFO (R93) -/
  traceFifoDepth : Nat
  /-- `WRITE_STREAM_THRESHOLD_L1`, `_L2`, `_L3` (D18) -/
  streamThresholdL1 : Nat
  streamThresholdL2 : Nat
  streamThresholdL3 : Nat
  deriving DecidableEq, Repr, Inhabited

/-- `NUM_CORES`, at least 1 (D5, R16). -/
def Config.numCores (c : Config) : Nat := c.coreId + 1 + c.coresAbove

/-- `PBHA_MEANING` is data-neutral (R178). -/
def Config.pbhaNeutral (c : Config) : Bool := c.pbhaMeaning.all (·.neutral)

/-- The places where the machine takes a free value; each names the rule that leaves it open. -/
inductive FreeKind where
  /-- which of the old and the new value of a control register an instruction sees (U13) -/
  | hazard
  /-- whether exception entry clears the monitor (R377) -/
  | monitorAtEntry
  /-- whether a plain store of this core into the tagged block clears the monitor (R376) -/
  | monitorOwnStore
  /-- whether a matching Store-Exclusive succeeds (R374) -/
  | storeExclPass
  /-- whether a Store-Exclusive to another block stores (R375, U10) -/
  | storeExclOther
  /-- whether a failing Store-Exclusive still takes its MMU fault (R391 and before) -/
  | storeExclFault
  /-- whether a failing compare still takes its write permission fault (R397) -/
  | casFault
  /-- whether an unsupported atomic takes a Data Abort or an SError (R215, U7) -/
  | atomicAbort
  /-- whether DC IVAC discards the dirty data of its line (R416, U15) -/
  | ivacDirty
  /-- the order among pending asynchronous exceptions (R469) -/
  | asyncOrder
  /-- the delay of a physical SError (R477) and its syndrome (R461) -/
  | serrorDelay
  | serrorSyndrome
  /-- whether an SError taken at an ESB returns to it or after it (R310) -/
  | esbReturn
  /-- a spurious wake-up (D15) -/
  | spuriousWake
  /-- when a requested Warm reset happens with no WFI (R604) -/
  | rmrReset
  /-- the old or the new word of a fetch (R192) -/
  | fetchWord
  /-- FAR_ELx after an exception that does not write it (R460) -/
  | farUnknown
  /-- allocation, set, way and MESI state of a cache line (R201, R204) -/
  | cacheAllocate
  | cacheSet
  | cacheWay
  | cacheShared
  /-- the PBHA value among mismatched aliases (R178) -/
  | pbhaAlias
  /-- the `EA` bit of a synchronous external abort, supplied by the bus (R459) -/
  | externalAbortType
  /-- how far a counter has advanced (D11) -/
  | counter
  /-- the bits of a register whose layout is lost (R316, U18) -/
  | lostBits
  /-- a register value after a reset of a running machine (R97, U21) -/
  | resetValue
  /-- the value read from a register the spec does not name (R315) -/
  | unnamedRegister
  /-- Translation or Address size fault on a non-canonical address (R44) -/
  | nonCanonical
  /-- whether the write buffer switches to write streaming, and other stream draws (R205) -/
  | writeStream
  /-- what a RAM error of the environment does where R481 leaves it open -/
  | ramError
  /-- whether an error that an eviction meets is deferred by poison (R487, R488) -/
  | evictError
  /-- the place of an L2 TLB entry, and the victim of a full L1 TLB (log entry 56) -/
  | tlbPlace
  /-- whether a load of memory that is not shareable sees another agent's write (R168) -/
  | nonShareable
  /-- the containment of a synchronous external abort, `SET` (R459) -/
  | errorSet
  /-- trace inputs, samples, and what a reset leaves untraced (R92, R97, R566) -/
  | trace
  /-- whether the filters of the trace unit pass an element (R560), and whether the TRBE accepts,
  discards or rejects what leaves the FIFO (R567) -/
  | traceFilter
  | trbeMode
  /-- what the part of the utility bus that is not this core's answers (R520, R522) -/
  | utilityBus
  deriving DecidableEq, Repr, Inhabited

/-- The free values: any natural number, any bit, any word, for a kind, a draw number and an index.
They have no body, so a statement about them holds for every choice. -/
opaque Config.freeNat : FreeKind → Nat → Nat → Nat
opaque Config.freeBool : FreeKind → Nat → Nat → Bool
opaque Config.freeWord : FreeKind → Nat → Nat → Word

/-- TLB contents after a reset of a running machine (U23). -/
opaque Config.freeTlb : Nat → List TlbEntry
opaque Config.freeL2Tlb : Nat → List TlbSlot

/-- What a translation table walk depends on: the regime, the level and kind of the access, the
address, the control registers of the regime, and memory. -/
structure WalkInput where
  regime : Regime
  el : EL
  kind : AccessKind
  stage1 : Bool
  stage2 : Bool
  /-- the attributes stage 1 gives while it is off (R142) -/
  offAttr : MemAttr
  va : Word
  ttbr0 : Word
  ttbr1 : Word
  tcr : Word
  sctlr : Word
  hcr : Word
  vttbr : Word
  vtcr : Word
  /-- `ATCR` and `AVTCR`, which control the PBHA value of the walk's own accesses (R175) -/
  atcr : Word
  avtcr : Word
  mem : List (Nat × Byte)
  draw : Nat
  deriving DecidableEq, Repr, Inhabited

/-- The walk of the Virtual Memory System Architecture, delegated to the Arm ARM (R143). -/
opaque Config.walk : WalkInput → WalkResult

/-- The PBHA value of a walk's accesses to the descriptors of stage 1, from `ATCR`, and of stage 2,
from `AVTCR`; the fields of the two registers are lost (R60, R175). -/
opaque Config.walkPbha1 : (atcr : Word) → Regime → BitVec 4
opaque Config.walkPbha2 : (avtcr : Word) → Regime → BitVec 4

/-- Whether a group of registers on the utility bus, the MPMM registers or the AMU counters, is
accessed from the right Security state: the table of R521 is lost (R523). -/
opaque Config.utilityOpen : (mpmm ns : Bool) → Bool

/-- The authentication code that `AddPAC(key, p, modifier)` of R356 inserts into a canonical
pointer: its bits in the places of the code. -/
opaque Config.pacCode : (keyHi keyLo pointer modifier : Word) → Word

/-- The twelve words an internal RAM entry reads as (`RamRead` of U5), by operand and moment. -/
opaque Config.ramRead : (operand : Word) → (moment word : Nat) → Word

/-- The lost fields of an identification register (R54, R70). -/
opaque Config.idValue : SysReg → Word

/-- What breakpoint and watchpoint matching depend on: the control and value register pairs, the
address and size, whether the access loads and stores, the level, the Security state, the context
ID and VTTBR_EL2 (R551 to R554). -/
structure DebugInput where
  brps : List (Word × Word)
  wps : List (Word × Word)
  va : Word
  size : Nat
  load : Bool
  store : Bool
  el : EL
  ns : Bool
  contextId : Word
  vttbr : Word
  deriving DecidableEq, Repr, Inhabited

/-- Breakpoint and watchpoint matching, delegated to the Arm ARM (R551, R554): a watchpoint match
gives the offset of a watched byte from the first byte accessed. -/
opaque Config.breakpointMatch : DebugInput → Bool
opaque Config.watchpointMatch : DebugInput → Option Nat

/-- Whether the Arm ARM gives this core a register at an encoding the spec does not name, and
whether it may be accessed there (R315, R316, R318). -/
opaque Config.unnamedAccess : SysEnc → EL → (read : Bool) → Bool

end Sys2Proof
end

