-- ==== Sys2Proof/Machine/SysTable.lean ====
section
/-! DEFINITION. The access rights of each system register by the suffix of its name (R318), the
group that names its gate, and the configuration the reset state carries (log entries 4, 5). -/

namespace Sys2Proof

/-- The group of a register: which gate of R318, R437 or R500 an access passes. -/
inductive SysGroup where
  /-- architectural registers with no gate of their own -/
  | plain
  /-- SVE control, trapped with the vector units (R437) -/
  | sve
  /-- identification registers (R70) -/
  | ident
  /-- a view of PSTATE (R45) -/
  | pstate
  /-- FPCR and FPSR, trapped with the vector units (R437) -/
  | fp
  /-- IMP_* registers, gated by IMP_ACCESS (R318) -/
  | imp
  /-- the twelve direct-access data registers (R313) -/
  | ramData
  /-- GIC CPU interface (R318 (b)) -/
  | gic
  /-- error record registers (R62) -/
  | ras
  /-- Generic Timer (R507) -/
  | timer
  /-- Activity Monitors (R318 (c)) -/
  | amu
  /-- Performance Monitors (R65) -/
  | pmu
  /-- debug registers (R66) -/
  | debug
  /-- trace unit (R67) -/
  | trace
  /-- trace buffer (R67) -/
  | trbe
  /-- statistical profiling, when SPE_PRESENT (R68) -/
  | spe
  deriving DecidableEq, Repr, Inhabited

/-- The lowest Exception level that may read and write a register, `none` for a register that is
never read or never written, and its group. -/
structure SysInfo where
  readLevel : Option EL
  writeLevel : Option EL
  group : SysGroup
  deriving DecidableEq, Repr, Inhabited

/-- The access rights of each register: those of the suffix of its name (R318 (d)), of the stack
pointers too; an EL0 register that only higher levels write as R542, R507 and R540 say, and
`PMUSERENR_EL0`, written from EL1 against its suffix, as in the family (PRESUMED, log entry 15). The
names without a suffix get EL1, but `AVTCR` EL2 (DESIGN CHOICE, log entry 5). -/
def SysReg.info (r : SysReg) : SysInfo :=
  match r with
  | .spsr_el1 => ⟨some 1, some 1, .plain⟩
  | .elr_el1 => ⟨some 1, some 1, .plain⟩
  | .esr_el1 => ⟨some 1, some 1, .plain⟩
  | .far_el1 => ⟨some 1, some 1, .plain⟩
  | .vbar_el1 => ⟨some 1, some 1, .plain⟩
  | .spsr_el2 => ⟨some 2, some 2, .plain⟩
  | .elr_el2 => ⟨some 2, some 2, .plain⟩
  | .esr_el2 => ⟨some 2, some 2, .plain⟩
  | .far_el2 => ⟨some 2, some 2, .plain⟩
  | .vbar_el2 => ⟨some 2, some 2, .plain⟩
  | .spsr_el3 => ⟨some 3, some 3, .plain⟩
  | .elr_el3 => ⟨some 3, some 3, .plain⟩
  | .esr_el3 => ⟨some 3, some 3, .plain⟩
  | .far_el3 => ⟨some 3, some 3, .plain⟩
  | .vbar_el3 => ⟨some 3, some 3, .plain⟩
  | .hpfar_el2 => ⟨some 2, some 2, .plain⟩
  | .vsesr_el2 => ⟨some 2, some 2, .plain⟩
  | .vdisr_el2 => ⟨some 2, some 2, .plain⟩
  | .disr_el1 => ⟨some 1, some 1, .plain⟩
  | .isr_el1 => ⟨some 1, none, .plain⟩
  | .rvbar_el3 => ⟨some 3, none, .plain⟩
  | .rmr_el3 => ⟨some 3, some 3, .plain⟩
  | .sctlr_el1 => ⟨some 1, some 1, .plain⟩
  | .sctlr_el2 => ⟨some 2, some 2, .plain⟩
  | .sctlr_el3 => ⟨some 3, some 3, .plain⟩
  | .scr_el3 => ⟨some 3, some 3, .plain⟩
  | .hcr_el2 => ⟨some 2, some 2, .plain⟩
  | .cpacr_el1 => ⟨some 1, some 1, .plain⟩
  | .cptr_el2 => ⟨some 2, some 2, .plain⟩
  | .cptr_el3 => ⟨some 3, some 3, .plain⟩
  | .mdcr_el2 => ⟨some 2, some 2, .plain⟩
  | .mdcr_el3 => ⟨some 3, some 3, .plain⟩
  | .zcr_el1 => ⟨some 1, some 1, .sve⟩
  | .zcr_el2 => ⟨some 2, some 2, .sve⟩
  | .zcr_el3 => ⟨some 3, some 3, .sve⟩
  | .ttbr0_el1 => ⟨some 1, some 1, .plain⟩
  | .ttbr1_el1 => ⟨some 1, some 1, .plain⟩
  | .tcr_el1 => ⟨some 1, some 1, .plain⟩
  | .ttbr0_el2 => ⟨some 2, some 2, .plain⟩
  | .ttbr1_el2 => ⟨some 2, some 2, .plain⟩
  | .tcr_el2 => ⟨some 2, some 2, .plain⟩
  | .ttbr0_el3 => ⟨some 3, some 3, .plain⟩
  | .tcr_el3 => ⟨some 3, some 3, .plain⟩
  | .vttbr_el2 => ⟨some 2, some 2, .plain⟩
  | .vtcr_el2 => ⟨some 2, some 2, .plain⟩
  | .vsttbr_el2 => ⟨some 2, some 2, .plain⟩
  | .vstcr_el2 => ⟨some 2, some 2, .plain⟩
  | .vncr_el2 => ⟨some 2, some 2, .plain⟩
  | .atcr => ⟨some 1, some 1, .plain⟩
  | .avtcr => ⟨some 2, some 2, .plain⟩
  | .contextidr_el1 => ⟨some 1, some 1, .plain⟩
  | .mpamidr_el1 => ⟨some 1, none, .ident⟩
  | .mpam1_el1 => ⟨some 1, some 1, .plain⟩
  | .mpam0_el1 => ⟨some 1, some 1, .plain⟩
  | .mpam2_el2 => ⟨some 2, some 2, .plain⟩
  | .mpam3_el3 => ⟨some 3, some 3, .plain⟩
  | .apiakeylo_el1 => ⟨some 1, some 1, .plain⟩
  | .apiakeyhi_el1 => ⟨some 1, some 1, .plain⟩
  | .apibkeylo_el1 => ⟨some 1, some 1, .plain⟩
  | .apibkeyhi_el1 => ⟨some 1, some 1, .plain⟩
  | .sp_el0 => ⟨some 0, some 0, .plain⟩
  | .sp_el1 => ⟨some 1, some 1, .plain⟩
  | .sp_el2 => ⟨some 2, some 2, .plain⟩
  | .spsel => ⟨some 1, some 1, .pstate⟩
  | .currentel => ⟨some 1, none, .pstate⟩
  | .pan => ⟨some 1, some 1, .pstate⟩
  | .uao => ⟨some 1, some 1, .pstate⟩
  | .nzcv => ⟨some 0, some 0, .pstate⟩
  | .daif => ⟨some 0, some 0, .pstate⟩
  | .dit => ⟨some 0, some 0, .pstate⟩
  | .ssbs => ⟨some 0, some 0, .pstate⟩
  | .tco => ⟨some 0, some 0, .pstate⟩
  | .fpcr => ⟨some 0, some 0, .fp⟩
  | .fpsr => ⟨some 0, some 0, .fp⟩
  | .midr_el1 => ⟨some 1, none, .ident⟩
  | .mpidr_el1 => ⟨some 1, none, .ident⟩
  | .revidr_el1 => ⟨some 1, none, .ident⟩
  | .id_aa64pfr0_el1 => ⟨some 1, none, .ident⟩
  | .id_aa64pfr1_el1 => ⟨some 1, none, .ident⟩
  | .id_aa64zfr0_el1 => ⟨some 1, none, .ident⟩
  | .id_aa64dfr0_el1 => ⟨some 1, none, .ident⟩
  | .id_aa64dfr1_el1 => ⟨some 1, none, .ident⟩
  | .id_aa64afr0_el1 => ⟨some 1, none, .ident⟩
  | .id_aa64afr1_el1 => ⟨some 1, none, .ident⟩
  | .id_aa64isar0_el1 => ⟨some 1, none, .ident⟩
  | .id_aa64isar1_el1 => ⟨some 1, none, .ident⟩
  | .id_aa64isar2_el1 => ⟨some 1, none, .ident⟩
  | .id_aa64mmfr0_el1 => ⟨some 1, none, .ident⟩
  | .id_aa64mmfr1_el1 => ⟨some 1, none, .ident⟩
  | .id_aa64mmfr2_el1 => ⟨some 1, none, .ident⟩
  | .ccsidr_el1 => ⟨some 1, none, .ident⟩
  | .clidr_el1 => ⟨some 1, none, .ident⟩
  | .csselr_el1 => ⟨some 1, some 1, .plain⟩
  | .ctr_el0 => ⟨some 0, none, .ident⟩
  | .dczid_el0 => ⟨some 0, none, .ident⟩
  | .imp_cpupwrctlr_el1 => ⟨some 1, some 1, .imp⟩
  | .imp_cpuectlr_el1 => ⟨some 1, some 1, .imp⟩
  | .imp_cpuectlr2_el1 => ⟨some 1, some 1, .imp⟩
  | .imp_cpuppmcr_el3 => ⟨some 3, some 3, .imp⟩
  | .imp_cpumpmmcr_el3 => ⟨some 3, some 3, .imp⟩
  | .ramdata0 => ⟨some 3, none, .ramData⟩
  | .ramdata1 => ⟨some 3, none, .ramData⟩
  | .ramdata2 => ⟨some 3, none, .ramData⟩
  | .ramdata3 => ⟨some 3, none, .ramData⟩
  | .ramdata4 => ⟨some 3, none, .ramData⟩
  | .ramdata5 => ⟨some 3, none, .ramData⟩
  | .ramdata6 => ⟨some 3, none, .ramData⟩
  | .ramdata7 => ⟨some 3, none, .ramData⟩
  | .ramdata8 => ⟨some 3, none, .ramData⟩
  | .ramdata9 => ⟨some 3, none, .ramData⟩
  | .ramdata10 => ⟨some 3, none, .ramData⟩
  | .ramdata11 => ⟨some 3, none, .ramData⟩
  | .icc_igrpen0_el1 => ⟨some 1, some 1, .gic⟩
  | .icc_igrpen1_el1 => ⟨some 1, some 1, .gic⟩
  | .icc_iar0_el1 => ⟨some 1, none, .gic⟩
  | .icc_iar1_el1 => ⟨some 1, none, .gic⟩
  | .icc_eoir0_el1 => ⟨none, some 1, .gic⟩
  | .icc_eoir1_el1 => ⟨none, some 1, .gic⟩
  | .icc_dir_el1 => ⟨none, some 1, .gic⟩
  | .icc_pmr_el1 => ⟨some 1, some 1, .gic⟩
  | .icc_bpr0_el1 => ⟨some 1, some 1, .gic⟩
  | .icc_bpr1_el1 => ⟨some 1, some 1, .gic⟩
  | .icc_ctlr_el1 => ⟨some 1, some 1, .gic⟩
  | .icc_ctlr_el3 => ⟨some 3, some 3, .gic⟩
  | .icc_sre_el1 => ⟨some 1, some 1, .gic⟩
  | .icc_sre_el2 => ⟨some 2, some 2, .gic⟩
  | .icc_sre_el3 => ⟨some 3, some 3, .gic⟩
  | .icc_sgi0r_el1 => ⟨none, some 1, .gic⟩
  | .icc_sgi1r_el1 => ⟨none, some 1, .gic⟩
  | .icc_asgi1r_el1 => ⟨none, some 1, .gic⟩
  | .icc_rpr_el1 => ⟨some 1, none, .gic⟩
  | .icc_hppir0_el1 => ⟨some 1, none, .gic⟩
  | .icc_hppir1_el1 => ⟨some 1, none, .gic⟩
  | .icc_ap0r0_el1 => ⟨some 1, some 1, .gic⟩
  | .icc_ap1r0_el1 => ⟨some 1, some 1, .gic⟩
  | .ich_hcr_el2 => ⟨some 2, some 2, .gic⟩
  | .ich_vtr_el2 => ⟨some 2, none, .gic⟩
  | .ich_misr_el2 => ⟨some 2, none, .gic⟩
  | .ich_eisr_el2 => ⟨some 2, none, .gic⟩
  | .ich_elrsr_el2 => ⟨some 2, none, .gic⟩
  | .ich_vmcr_el2 => ⟨some 2, some 2, .gic⟩
  | .ich_ap0r0_el2 => ⟨some 2, some 2, .gic⟩
  | .ich_ap1r0_el2 => ⟨some 2, some 2, .gic⟩
  | .ich_lr0_el2 => ⟨some 2, some 2, .gic⟩
  | .ich_lr1_el2 => ⟨some 2, some 2, .gic⟩
  | .ich_lr2_el2 => ⟨some 2, some 2, .gic⟩
  | .ich_lr3_el2 => ⟨some 2, some 2, .gic⟩
  | .erridr_el1 => ⟨some 1, none, .ras⟩
  | .errselr_el1 => ⟨some 1, some 1, .ras⟩
  | .erxfr_el1 => ⟨some 1, none, .ras⟩
  | .erxctlr_el1 => ⟨some 1, some 1, .ras⟩
  | .erxstatus_el1 => ⟨some 1, some 1, .ras⟩
  | .erxaddr_el1 => ⟨some 1, some 1, .ras⟩
  | .erxpfgf_el1 => ⟨some 1, none, .ras⟩
  | .erxpfgctl_el1 => ⟨some 1, some 1, .ras⟩
  | .erxpfgcdn_el1 => ⟨some 1, some 1, .ras⟩
  | .erxmisc0_el1 => ⟨some 1, some 1, .ras⟩
  | .erxmisc1_el1 => ⟨some 1, some 1, .ras⟩
  | .erxmisc2_el1 => ⟨some 1, some 1, .ras⟩
  | .erxmisc3_el1 => ⟨some 1, some 1, .ras⟩
  | .cntfrq_el0 => ⟨some 0, some 3, .timer⟩
  | .cntpct_el0 => ⟨some 0, none, .timer⟩
  | .cntvct_el0 => ⟨some 0, none, .timer⟩
  | .cntkctl_el1 => ⟨some 1, some 1, .timer⟩
  | .cntvoff_el2 => ⟨some 2, some 2, .timer⟩
  | .cnthctl_el2 => ⟨some 2, some 2, .timer⟩
  | .cntp_tval_el0 => ⟨some 0, some 0, .timer⟩
  | .cntp_ctl_el0 => ⟨some 0, some 0, .timer⟩
  | .cntp_cval_el0 => ⟨some 0, some 0, .timer⟩
  | .cntv_tval_el0 => ⟨some 0, some 0, .timer⟩
  | .cntv_ctl_el0 => ⟨some 0, some 0, .timer⟩
  | .cntv_cval_el0 => ⟨some 0, some 0, .timer⟩
  | .cnthp_tval_el2 => ⟨some 2, some 2, .timer⟩
  | .cnthp_ctl_el2 => ⟨some 2, some 2, .timer⟩
  | .cnthp_cval_el2 => ⟨some 2, some 2, .timer⟩
  | .cnthv_tval_el2 => ⟨some 2, some 2, .timer⟩
  | .cnthv_ctl_el2 => ⟨some 2, some 2, .timer⟩
  | .cnthv_cval_el2 => ⟨some 2, some 2, .timer⟩
  | .cntps_tval_el1 => ⟨some 1, some 1, .timer⟩
  | .cntps_ctl_el1 => ⟨some 1, some 1, .timer⟩
  | .cntps_cval_el1 => ⟨some 1, some 1, .timer⟩
  | .amuserenr_el0 => ⟨some 0, some 1, .amu⟩
  | .amcr_el0 => ⟨some 0, some 3, .amu⟩
  | .amcfgr_el0 => ⟨some 0, none, .amu⟩
  | .amcgcr_el0 => ⟨some 0, none, .amu⟩
  | .amcntenclr0_el0 => ⟨some 0, some 3, .amu⟩
  | .amcntenset0_el0 => ⟨some 0, some 3, .amu⟩
  | .amcntenclr1_el0 => ⟨some 0, some 3, .amu⟩
  | .amcntenset1_el0 => ⟨some 0, some 3, .amu⟩
  | .amevcntr00_el0 => ⟨some 0, some 3, .amu⟩
  | .amevcntr01_el0 => ⟨some 0, some 3, .amu⟩
  | .amevcntr02_el0 => ⟨some 0, some 3, .amu⟩
  | .amevcntr03_el0 => ⟨some 0, some 3, .amu⟩
  | .amevcntr10_el0 => ⟨some 0, some 3, .amu⟩
  | .amevcntr11_el0 => ⟨some 0, some 3, .amu⟩
  | .amevcntr12_el0 => ⟨some 0, some 3, .amu⟩
  | .amevtyper00_el0 => ⟨some 0, none, .amu⟩
  | .amevtyper01_el0 => ⟨some 0, none, .amu⟩
  | .amevtyper02_el0 => ⟨some 0, none, .amu⟩
  | .amevtyper03_el0 => ⟨some 0, none, .amu⟩
  | .amevtyper10_el0 => ⟨some 0, none, .amu⟩
  | .amevtyper11_el0 => ⟨some 0, none, .amu⟩
  | .amevtyper12_el0 => ⟨some 0, none, .amu⟩
  | .pmcr_el0 => ⟨some 0, some 0, .pmu⟩
  | .pmcntenset_el0 => ⟨some 0, some 0, .pmu⟩
  | .pmcntenclr_el0 => ⟨some 0, some 0, .pmu⟩
  | .pmovsclr_el0 => ⟨some 0, some 0, .pmu⟩
  | .pmovsset_el0 => ⟨some 0, some 0, .pmu⟩
  | .pmintenset_el1 => ⟨some 1, some 1, .pmu⟩
  | .pmintenclr_el1 => ⟨some 1, some 1, .pmu⟩
  | .pmuserenr_el0 => ⟨some 0, some 1, .pmu⟩
  | .pmselr_el0 => ⟨some 0, some 0, .pmu⟩
  | .pmxevtyper_el0 => ⟨some 0, some 0, .pmu⟩
  | .pmxevcntr_el0 => ⟨some 0, some 0, .pmu⟩
  | .pmccntr_el0 => ⟨some 0, some 0, .pmu⟩
  | .pmccfiltr_el0 => ⟨some 0, some 0, .pmu⟩
  | .pmevcntr0_el0 => ⟨some 0, some 0, .pmu⟩
  | .pmevcntr1_el0 => ⟨some 0, some 0, .pmu⟩
  | .pmevcntr2_el0 => ⟨some 0, some 0, .pmu⟩
  | .pmevcntr3_el0 => ⟨some 0, some 0, .pmu⟩
  | .pmevcntr4_el0 => ⟨some 0, some 0, .pmu⟩
  | .pmevcntr5_el0 => ⟨some 0, some 0, .pmu⟩
  | .pmevcntr6_el0 => ⟨some 0, some 0, .pmu⟩
  | .pmevcntr7_el0 => ⟨some 0, some 0, .pmu⟩
  | .pmevcntr8_el0 => ⟨some 0, some 0, .pmu⟩
  | .pmevcntr9_el0 => ⟨some 0, some 0, .pmu⟩
  | .pmevcntr10_el0 => ⟨some 0, some 0, .pmu⟩
  | .pmevcntr11_el0 => ⟨some 0, some 0, .pmu⟩
  | .pmevcntr12_el0 => ⟨some 0, some 0, .pmu⟩
  | .pmevcntr13_el0 => ⟨some 0, some 0, .pmu⟩
  | .pmevcntr14_el0 => ⟨some 0, some 0, .pmu⟩
  | .pmevcntr15_el0 => ⟨some 0, some 0, .pmu⟩
  | .pmevcntr16_el0 => ⟨some 0, some 0, .pmu⟩
  | .pmevcntr17_el0 => ⟨some 0, some 0, .pmu⟩
  | .pmevcntr18_el0 => ⟨some 0, some 0, .pmu⟩
  | .pmevcntr19_el0 => ⟨some 0, some 0, .pmu⟩
  | .pmevtyper0_el0 => ⟨some 0, some 0, .pmu⟩
  | .pmevtyper1_el0 => ⟨some 0, some 0, .pmu⟩
  | .pmevtyper2_el0 => ⟨some 0, some 0, .pmu⟩
  | .pmevtyper3_el0 => ⟨some 0, some 0, .pmu⟩
  | .pmevtyper4_el0 => ⟨some 0, some 0, .pmu⟩
  | .pmevtyper5_el0 => ⟨some 0, some 0, .pmu⟩
  | .pmevtyper6_el0 => ⟨some 0, some 0, .pmu⟩
  | .pmevtyper7_el0 => ⟨some 0, some 0, .pmu⟩
  | .pmevtyper8_el0 => ⟨some 0, some 0, .pmu⟩
  | .pmevtyper9_el0 => ⟨some 0, some 0, .pmu⟩
  | .pmevtyper10_el0 => ⟨some 0, some 0, .pmu⟩
  | .pmevtyper11_el0 => ⟨some 0, some 0, .pmu⟩
  | .pmevtyper12_el0 => ⟨some 0, some 0, .pmu⟩
  | .pmevtyper13_el0 => ⟨some 0, some 0, .pmu⟩
  | .pmevtyper14_el0 => ⟨some 0, some 0, .pmu⟩
  | .pmevtyper15_el0 => ⟨some 0, some 0, .pmu⟩
  | .pmevtyper16_el0 => ⟨some 0, some 0, .pmu⟩
  | .pmevtyper17_el0 => ⟨some 0, some 0, .pmu⟩
  | .pmevtyper18_el0 => ⟨some 0, some 0, .pmu⟩
  | .pmevtyper19_el0 => ⟨some 0, some 0, .pmu⟩
  | .dbgbvr0_el1 => ⟨some 1, some 1, .debug⟩
  | .dbgbcr0_el1 => ⟨some 1, some 1, .debug⟩
  | .dbgbvr1_el1 => ⟨some 1, some 1, .debug⟩
  | .dbgbcr1_el1 => ⟨some 1, some 1, .debug⟩
  | .dbgbvr2_el1 => ⟨some 1, some 1, .debug⟩
  | .dbgbcr2_el1 => ⟨some 1, some 1, .debug⟩
  | .dbgbvr3_el1 => ⟨some 1, some 1, .debug⟩
  | .dbgbcr3_el1 => ⟨some 1, some 1, .debug⟩
  | .dbgbvr4_el1 => ⟨some 1, some 1, .debug⟩
  | .dbgbcr4_el1 => ⟨some 1, some 1, .debug⟩
  | .dbgbvr5_el1 => ⟨some 1, some 1, .debug⟩
  | .dbgbcr5_el1 => ⟨some 1, some 1, .debug⟩
  | .dbgwvr0_el1 => ⟨some 1, some 1, .debug⟩
  | .dbgwcr0_el1 => ⟨some 1, some 1, .debug⟩
  | .dbgwvr1_el1 => ⟨some 1, some 1, .debug⟩
  | .dbgwcr1_el1 => ⟨some 1, some 1, .debug⟩
  | .dbgwvr2_el1 => ⟨some 1, some 1, .debug⟩
  | .dbgwcr2_el1 => ⟨some 1, some 1, .debug⟩
  | .dbgwvr3_el1 => ⟨some 1, some 1, .debug⟩
  | .dbgwcr3_el1 => ⟨some 1, some 1, .debug⟩
  | .mdscr_el1 => ⟨some 1, some 1, .debug⟩
  | .oslar_el1 => ⟨none, some 1, .debug⟩
  | .oslsr_el1 => ⟨some 1, none, .debug⟩
  | .mdccsr_el0 => ⟨some 0, none, .debug⟩
  | .dbgdtr_el0 => ⟨some 0, some 0, .debug⟩
  | .dbgdtrx_el0 => ⟨some 0, some 0, .debug⟩
  | .trcprgctlr => ⟨some 1, some 1, .trace⟩
  | .trcstatr => ⟨some 1, none, .trace⟩
  | .trblimitr_el1 => ⟨some 1, some 1, .trbe⟩
  | .trbbaser_el1 => ⟨some 1, some 1, .trbe⟩
  | .trcextinselr0 => ⟨some 1, some 1, .trace⟩
  | .trcextinselr1 => ⟨some 1, some 1, .trace⟩
  | .trcextinselr2 => ⟨some 1, some 1, .trace⟩
  | .trcextinselr3 => ⟨some 1, some 1, .trace⟩
  | .trccntvr0 => ⟨some 1, some 1, .trace⟩
  | .trccntvr1 => ⟨some 1, some 1, .trace⟩
  | .pmblimitr_el1 => ⟨some 1, some 1, .spe⟩
  | .pmbptr_el1 => ⟨some 1, some 1, .spe⟩
  | .pmsidr_el1 => ⟨some 1, none, .spe⟩
  | .icc_igrpen1_el1_ns => ⟨some 1, some 1, .gic⟩
  | .icc_bpr1_el1_ns => ⟨some 1, some 1, .gic⟩
  | .icc_ctlr_el1_ns => ⟨some 1, some 1, .gic⟩
  | .trceventctl0r => ⟨some 1, some 1, .trace⟩

/-- Family encodings, piece 0: op0 - 2, op1, CRn, CRm, op2 (log entry 5). -/
def familyEnc0 : List (SysReg × SysEnc) := [
  (.spsr_el1, ⟨1, 0, 4, 0, 0⟩),
  (.elr_el1, ⟨1, 0, 4, 0, 1⟩),
  (.esr_el1, ⟨1, 0, 5, 2, 0⟩),
  (.far_el1, ⟨1, 0, 6, 0, 0⟩),
  (.vbar_el1, ⟨1, 0, 12, 0, 0⟩),
  (.spsr_el2, ⟨1, 4, 4, 0, 0⟩),
  (.elr_el2, ⟨1, 4, 4, 0, 1⟩),
  (.esr_el2, ⟨1, 4, 5, 2, 0⟩),
  (.far_el2, ⟨1, 4, 6, 0, 0⟩),
  (.vbar_el2, ⟨1, 4, 12, 0, 0⟩),
  (.spsr_el3, ⟨1, 6, 4, 0, 0⟩),
  (.elr_el3, ⟨1, 6, 4, 0, 1⟩),
  (.esr_el3, ⟨1, 6, 5, 2, 0⟩),
  (.far_el3, ⟨1, 6, 6, 0, 0⟩),
  (.vbar_el3, ⟨1, 6, 12, 0, 0⟩),
  (.hpfar_el2, ⟨1, 4, 6, 0, 4⟩),
  (.vsesr_el2, ⟨1, 4, 5, 2, 3⟩),
  (.vdisr_el2, ⟨1, 4, 12, 1, 1⟩),
  (.disr_el1, ⟨1, 0, 12, 1, 1⟩),
  (.isr_el1, ⟨1, 0, 12, 1, 0⟩),
  (.rvbar_el3, ⟨1, 6, 12, 0, 1⟩),
  (.rmr_el3, ⟨1, 6, 12, 0, 2⟩),
  (.sctlr_el1, ⟨1, 0, 1, 0, 0⟩),
  (.sctlr_el2, ⟨1, 4, 1, 0, 0⟩),
  (.sctlr_el3, ⟨1, 6, 1, 0, 0⟩),
  (.scr_el3, ⟨1, 6, 1, 1, 0⟩),
  (.hcr_el2, ⟨1, 4, 1, 1, 0⟩),
  (.cpacr_el1, ⟨1, 0, 1, 0, 2⟩),
  (.cptr_el2, ⟨1, 4, 1, 1, 2⟩),
  (.cptr_el3, ⟨1, 6, 1, 1, 2⟩),
  (.mdcr_el2, ⟨1, 4, 1, 1, 1⟩),
  (.mdcr_el3, ⟨1, 6, 1, 3, 1⟩),
  (.zcr_el1, ⟨1, 0, 1, 2, 0⟩),
  (.zcr_el2, ⟨1, 4, 1, 2, 0⟩),
  (.zcr_el3, ⟨1, 6, 1, 2, 0⟩),
  (.ttbr0_el1, ⟨1, 0, 2, 0, 0⟩),
  (.ttbr1_el1, ⟨1, 0, 2, 0, 1⟩),
  (.tcr_el1, ⟨1, 0, 2, 0, 2⟩),
  (.ttbr0_el2, ⟨1, 4, 2, 0, 0⟩),
  (.ttbr1_el2, ⟨1, 4, 2, 0, 1⟩),
  (.tcr_el2, ⟨1, 4, 2, 0, 2⟩),
  (.ttbr0_el3, ⟨1, 6, 2, 0, 0⟩),
  (.tcr_el3, ⟨1, 6, 2, 0, 2⟩),
  (.vttbr_el2, ⟨1, 4, 2, 1, 0⟩),
  (.vtcr_el2, ⟨1, 4, 2, 1, 2⟩)]

/-- Family encodings, piece 1: op0 - 2, op1, CRn, CRm, op2 (log entry 5). -/
def familyEnc1 : List (SysReg × SysEnc) := [
  (.vsttbr_el2, ⟨1, 4, 2, 6, 0⟩),
  (.vstcr_el2, ⟨1, 4, 2, 6, 2⟩),
  (.vncr_el2, ⟨1, 4, 2, 2, 0⟩),
  (.atcr, ⟨1, 0, 15, 7, 0⟩),
  (.avtcr, ⟨1, 4, 15, 7, 1⟩),
  (.contextidr_el1, ⟨1, 0, 13, 0, 1⟩),
  (.mpamidr_el1, ⟨1, 0, 10, 4, 4⟩),
  (.mpam1_el1, ⟨1, 0, 10, 5, 0⟩),
  (.mpam0_el1, ⟨1, 0, 10, 5, 1⟩),
  (.mpam2_el2, ⟨1, 4, 10, 5, 0⟩),
  (.mpam3_el3, ⟨1, 6, 10, 5, 0⟩),
  (.apiakeylo_el1, ⟨1, 0, 2, 1, 0⟩),
  (.apiakeyhi_el1, ⟨1, 0, 2, 1, 1⟩),
  (.apibkeylo_el1, ⟨1, 0, 2, 1, 2⟩),
  (.apibkeyhi_el1, ⟨1, 0, 2, 1, 3⟩),
  (.sp_el0, ⟨1, 0, 4, 1, 0⟩),
  (.sp_el1, ⟨1, 4, 4, 1, 0⟩),
  (.sp_el2, ⟨1, 6, 4, 1, 0⟩),
  (.spsel, ⟨1, 0, 4, 2, 0⟩),
  (.currentel, ⟨1, 0, 4, 2, 2⟩),
  (.pan, ⟨1, 0, 4, 2, 3⟩),
  (.uao, ⟨1, 0, 4, 2, 4⟩),
  (.nzcv, ⟨1, 3, 4, 2, 0⟩),
  (.daif, ⟨1, 3, 4, 2, 1⟩),
  (.dit, ⟨1, 3, 4, 2, 5⟩),
  (.ssbs, ⟨1, 3, 4, 2, 6⟩),
  (.tco, ⟨1, 3, 4, 2, 7⟩),
  (.fpcr, ⟨1, 3, 4, 4, 0⟩),
  (.fpsr, ⟨1, 3, 4, 4, 1⟩),
  (.midr_el1, ⟨1, 0, 0, 0, 0⟩),
  (.mpidr_el1, ⟨1, 0, 0, 0, 5⟩),
  (.revidr_el1, ⟨1, 0, 0, 0, 6⟩),
  (.id_aa64pfr0_el1, ⟨1, 0, 0, 4, 0⟩),
  (.id_aa64pfr1_el1, ⟨1, 0, 0, 4, 1⟩),
  (.id_aa64zfr0_el1, ⟨1, 0, 0, 4, 4⟩),
  (.id_aa64dfr0_el1, ⟨1, 0, 0, 5, 0⟩),
  (.id_aa64dfr1_el1, ⟨1, 0, 0, 5, 1⟩),
  (.id_aa64afr0_el1, ⟨1, 0, 0, 5, 4⟩),
  (.id_aa64afr1_el1, ⟨1, 0, 0, 5, 5⟩),
  (.id_aa64isar0_el1, ⟨1, 0, 0, 6, 0⟩),
  (.id_aa64isar1_el1, ⟨1, 0, 0, 6, 1⟩),
  (.id_aa64isar2_el1, ⟨1, 0, 0, 6, 2⟩),
  (.id_aa64mmfr0_el1, ⟨1, 0, 0, 7, 0⟩),
  (.id_aa64mmfr1_el1, ⟨1, 0, 0, 7, 1⟩),
  (.id_aa64mmfr2_el1, ⟨1, 0, 0, 7, 2⟩)]

/-- Family encodings, piece 2: op0 - 2, op1, CRn, CRm, op2 (log entry 5). -/
def familyEnc2 : List (SysReg × SysEnc) := [
  (.ccsidr_el1, ⟨1, 1, 0, 0, 0⟩),
  (.clidr_el1, ⟨1, 1, 0, 0, 1⟩),
  (.csselr_el1, ⟨1, 2, 0, 0, 0⟩),
  (.ctr_el0, ⟨1, 3, 0, 0, 1⟩),
  (.dczid_el0, ⟨1, 3, 0, 0, 7⟩),
  (.imp_cpupwrctlr_el1, ⟨1, 0, 15, 2, 7⟩),
  (.imp_cpuectlr_el1, ⟨1, 0, 15, 1, 4⟩),
  (.imp_cpuectlr2_el1, ⟨1, 0, 15, 1, 5⟩),
  (.imp_cpuppmcr_el3, ⟨1, 6, 15, 2, 0⟩),
  (.imp_cpumpmmcr_el3, ⟨1, 6, 15, 2, 1⟩),
  (.ramdata0, ⟨1, 6, 15, 0, 0⟩),
  (.ramdata1, ⟨1, 6, 15, 0, 1⟩),
  (.ramdata2, ⟨1, 6, 15, 0, 2⟩),
  (.ramdata3, ⟨1, 6, 15, 0, 3⟩),
  (.ramdata4, ⟨1, 6, 15, 0, 4⟩),
  (.ramdata5, ⟨1, 6, 15, 0, 5⟩),
  (.ramdata6, ⟨1, 6, 15, 1, 0⟩),
  (.ramdata7, ⟨1, 6, 15, 1, 1⟩),
  (.ramdata8, ⟨1, 6, 15, 1, 2⟩),
  (.ramdata9, ⟨1, 6, 15, 1, 3⟩),
  (.ramdata10, ⟨1, 6, 15, 1, 4⟩),
  (.ramdata11, ⟨1, 6, 15, 1, 5⟩),
  (.icc_igrpen0_el1, ⟨1, 0, 12, 12, 6⟩),
  (.icc_igrpen1_el1, ⟨1, 0, 12, 12, 7⟩),
  (.icc_iar0_el1, ⟨1, 0, 12, 8, 0⟩),
  (.icc_iar1_el1, ⟨1, 0, 12, 12, 0⟩),
  (.icc_eoir0_el1, ⟨1, 0, 12, 8, 1⟩),
  (.icc_eoir1_el1, ⟨1, 0, 12, 12, 1⟩),
  (.icc_dir_el1, ⟨1, 0, 12, 11, 1⟩),
  (.icc_pmr_el1, ⟨1, 0, 4, 6, 0⟩),
  (.icc_bpr0_el1, ⟨1, 0, 12, 8, 3⟩),
  (.icc_bpr1_el1, ⟨1, 0, 12, 12, 3⟩),
  (.icc_ctlr_el1, ⟨1, 0, 12, 12, 4⟩),
  (.icc_ctlr_el3, ⟨1, 6, 12, 12, 4⟩),
  (.icc_sre_el1, ⟨1, 0, 12, 12, 5⟩),
  (.icc_sre_el2, ⟨1, 4, 12, 9, 5⟩),
  (.icc_sre_el3, ⟨1, 6, 12, 12, 5⟩),
  (.icc_sgi0r_el1, ⟨1, 0, 12, 11, 7⟩),
  (.icc_sgi1r_el1, ⟨1, 0, 12, 11, 5⟩),
  (.icc_asgi1r_el1, ⟨1, 0, 12, 11, 6⟩),
  (.icc_rpr_el1, ⟨1, 0, 12, 11, 3⟩),
  (.icc_hppir0_el1, ⟨1, 0, 12, 8, 2⟩),
  (.icc_hppir1_el1, ⟨1, 0, 12, 12, 2⟩),
  (.icc_ap0r0_el1, ⟨1, 0, 12, 8, 4⟩),
  (.icc_ap1r0_el1, ⟨1, 0, 12, 9, 0⟩)]

/-- Family encodings, piece 3: op0 - 2, op1, CRn, CRm, op2 (log entry 5). -/
def familyEnc3 : List (SysReg × SysEnc) := [
  (.ich_hcr_el2, ⟨1, 4, 12, 11, 0⟩),
  (.ich_vtr_el2, ⟨1, 4, 12, 11, 1⟩),
  (.ich_misr_el2, ⟨1, 4, 12, 11, 2⟩),
  (.ich_eisr_el2, ⟨1, 4, 12, 11, 3⟩),
  (.ich_elrsr_el2, ⟨1, 4, 12, 11, 5⟩),
  (.ich_vmcr_el2, ⟨1, 4, 12, 11, 7⟩),
  (.ich_ap0r0_el2, ⟨1, 4, 12, 8, 0⟩),
  (.ich_ap1r0_el2, ⟨1, 4, 12, 9, 0⟩),
  (.ich_lr0_el2, ⟨1, 4, 12, 12, 0⟩),
  (.ich_lr1_el2, ⟨1, 4, 12, 12, 1⟩),
  (.ich_lr2_el2, ⟨1, 4, 12, 12, 2⟩),
  (.ich_lr3_el2, ⟨1, 4, 12, 12, 3⟩),
  (.erridr_el1, ⟨1, 0, 5, 3, 0⟩),
  (.errselr_el1, ⟨1, 0, 5, 3, 1⟩),
  (.erxfr_el1, ⟨1, 0, 5, 4, 0⟩),
  (.erxctlr_el1, ⟨1, 0, 5, 4, 1⟩),
  (.erxstatus_el1, ⟨1, 0, 5, 4, 2⟩),
  (.erxaddr_el1, ⟨1, 0, 5, 4, 3⟩),
  (.erxpfgf_el1, ⟨1, 0, 5, 4, 4⟩),
  (.erxpfgctl_el1, ⟨1, 0, 5, 4, 5⟩),
  (.erxpfgcdn_el1, ⟨1, 0, 5, 4, 6⟩),
  (.erxmisc0_el1, ⟨1, 0, 5, 5, 0⟩),
  (.erxmisc1_el1, ⟨1, 0, 5, 5, 1⟩),
  (.erxmisc2_el1, ⟨1, 0, 5, 5, 2⟩),
  (.erxmisc3_el1, ⟨1, 0, 5, 5, 3⟩),
  (.cntfrq_el0, ⟨1, 3, 14, 0, 0⟩),
  (.cntpct_el0, ⟨1, 3, 14, 0, 1⟩),
  (.cntvct_el0, ⟨1, 3, 14, 0, 2⟩),
  (.cntkctl_el1, ⟨1, 0, 14, 1, 0⟩),
  (.cntvoff_el2, ⟨1, 4, 14, 0, 3⟩),
  (.cnthctl_el2, ⟨1, 4, 14, 1, 0⟩),
  (.cntp_tval_el0, ⟨1, 3, 14, 2, 0⟩),
  (.cntp_ctl_el0, ⟨1, 3, 14, 2, 1⟩),
  (.cntp_cval_el0, ⟨1, 3, 14, 2, 2⟩),
  (.cntv_tval_el0, ⟨1, 3, 14, 3, 0⟩),
  (.cntv_ctl_el0, ⟨1, 3, 14, 3, 1⟩),
  (.cntv_cval_el0, ⟨1, 3, 14, 3, 2⟩),
  (.cnthp_tval_el2, ⟨1, 4, 14, 2, 0⟩),
  (.cnthp_ctl_el2, ⟨1, 4, 14, 2, 1⟩),
  (.cnthp_cval_el2, ⟨1, 4, 14, 2, 2⟩),
  (.cnthv_tval_el2, ⟨1, 4, 14, 3, 0⟩),
  (.cnthv_ctl_el2, ⟨1, 4, 14, 3, 1⟩),
  (.cnthv_cval_el2, ⟨1, 4, 14, 3, 2⟩),
  (.cntps_tval_el1, ⟨1, 7, 14, 2, 0⟩),
  (.cntps_ctl_el1, ⟨1, 7, 14, 2, 1⟩)]

/-- Family encodings, piece 4: op0 - 2, op1, CRn, CRm, op2 (log entry 5). -/
def familyEnc4 : List (SysReg × SysEnc) := [
  (.cntps_cval_el1, ⟨1, 7, 14, 2, 2⟩),
  (.amuserenr_el0, ⟨1, 3, 13, 2, 3⟩),
  (.amcr_el0, ⟨1, 3, 13, 2, 0⟩),
  (.amcfgr_el0, ⟨1, 3, 13, 2, 1⟩),
  (.amcgcr_el0, ⟨1, 3, 13, 2, 2⟩),
  (.amcntenclr0_el0, ⟨1, 3, 13, 2, 4⟩),
  (.amcntenset0_el0, ⟨1, 3, 13, 2, 5⟩),
  (.amcntenclr1_el0, ⟨1, 3, 13, 3, 0⟩),
  (.amcntenset1_el0, ⟨1, 3, 13, 3, 1⟩),
  (.amevcntr00_el0, ⟨1, 3, 13, 4, 0⟩),
  (.amevcntr01_el0, ⟨1, 3, 13, 4, 1⟩),
  (.amevcntr02_el0, ⟨1, 3, 13, 4, 2⟩),
  (.amevcntr03_el0, ⟨1, 3, 13, 4, 3⟩),
  (.amevcntr10_el0, ⟨1, 3, 13, 12, 0⟩),
  (.amevcntr11_el0, ⟨1, 3, 13, 12, 1⟩),
  (.amevcntr12_el0, ⟨1, 3, 13, 12, 2⟩),
  (.amevtyper00_el0, ⟨1, 3, 13, 6, 0⟩),
  (.amevtyper01_el0, ⟨1, 3, 13, 6, 1⟩),
  (.amevtyper02_el0, ⟨1, 3, 13, 6, 2⟩),
  (.amevtyper03_el0, ⟨1, 3, 13, 6, 3⟩),
  (.amevtyper10_el0, ⟨1, 3, 13, 14, 0⟩),
  (.amevtyper11_el0, ⟨1, 3, 13, 14, 1⟩),
  (.amevtyper12_el0, ⟨1, 3, 13, 14, 2⟩),
  (.pmcr_el0, ⟨1, 3, 9, 12, 0⟩),
  (.pmcntenset_el0, ⟨1, 3, 9, 12, 1⟩),
  (.pmcntenclr_el0, ⟨1, 3, 9, 12, 2⟩),
  (.pmovsclr_el0, ⟨1, 3, 9, 12, 3⟩),
  (.pmovsset_el0, ⟨1, 3, 9, 14, 3⟩),
  (.pmintenset_el1, ⟨1, 0, 9, 14, 1⟩),
  (.pmintenclr_el1, ⟨1, 0, 9, 14, 2⟩),
  (.pmuserenr_el0, ⟨1, 3, 9, 14, 0⟩),
  (.pmselr_el0, ⟨1, 3, 9, 12, 5⟩),
  (.pmxevtyper_el0, ⟨1, 3, 9, 13, 1⟩),
  (.pmxevcntr_el0, ⟨1, 3, 9, 13, 2⟩),
  (.pmccntr_el0, ⟨1, 3, 9, 13, 0⟩),
  (.pmccfiltr_el0, ⟨1, 3, 14, 15, 7⟩),
  (.pmevcntr0_el0, ⟨1, 3, 14, 8, 0⟩),
  (.pmevcntr1_el0, ⟨1, 3, 14, 8, 1⟩),
  (.pmevcntr2_el0, ⟨1, 3, 14, 8, 2⟩),
  (.pmevcntr3_el0, ⟨1, 3, 14, 8, 3⟩),
  (.pmevcntr4_el0, ⟨1, 3, 14, 8, 4⟩),
  (.pmevcntr5_el0, ⟨1, 3, 14, 8, 5⟩),
  (.pmevcntr6_el0, ⟨1, 3, 14, 8, 6⟩),
  (.pmevcntr7_el0, ⟨1, 3, 14, 8, 7⟩),
  (.pmevcntr8_el0, ⟨1, 3, 14, 9, 0⟩)]

/-- Family encodings, piece 5: op0 - 2, op1, CRn, CRm, op2 (log entry 5). -/
def familyEnc5 : List (SysReg × SysEnc) := [
  (.pmevcntr9_el0, ⟨1, 3, 14, 9, 1⟩),
  (.pmevcntr10_el0, ⟨1, 3, 14, 9, 2⟩),
  (.pmevcntr11_el0, ⟨1, 3, 14, 9, 3⟩),
  (.pmevcntr12_el0, ⟨1, 3, 14, 9, 4⟩),
  (.pmevcntr13_el0, ⟨1, 3, 14, 9, 5⟩),
  (.pmevcntr14_el0, ⟨1, 3, 14, 9, 6⟩),
  (.pmevcntr15_el0, ⟨1, 3, 14, 9, 7⟩),
  (.pmevcntr16_el0, ⟨1, 3, 14, 10, 0⟩),
  (.pmevcntr17_el0, ⟨1, 3, 14, 10, 1⟩),
  (.pmevcntr18_el0, ⟨1, 3, 14, 10, 2⟩),
  (.pmevcntr19_el0, ⟨1, 3, 14, 10, 3⟩),
  (.pmevtyper0_el0, ⟨1, 3, 14, 12, 0⟩),
  (.pmevtyper1_el0, ⟨1, 3, 14, 12, 1⟩),
  (.pmevtyper2_el0, ⟨1, 3, 14, 12, 2⟩),
  (.pmevtyper3_el0, ⟨1, 3, 14, 12, 3⟩),
  (.pmevtyper4_el0, ⟨1, 3, 14, 12, 4⟩),
  (.pmevtyper5_el0, ⟨1, 3, 14, 12, 5⟩),
  (.pmevtyper6_el0, ⟨1, 3, 14, 12, 6⟩),
  (.pmevtyper7_el0, ⟨1, 3, 14, 12, 7⟩),
  (.pmevtyper8_el0, ⟨1, 3, 14, 13, 0⟩),
  (.pmevtyper9_el0, ⟨1, 3, 14, 13, 1⟩),
  (.pmevtyper10_el0, ⟨1, 3, 14, 13, 2⟩),
  (.pmevtyper11_el0, ⟨1, 3, 14, 13, 3⟩),
  (.pmevtyper12_el0, ⟨1, 3, 14, 13, 4⟩),
  (.pmevtyper13_el0, ⟨1, 3, 14, 13, 5⟩),
  (.pmevtyper14_el0, ⟨1, 3, 14, 13, 6⟩),
  (.pmevtyper15_el0, ⟨1, 3, 14, 13, 7⟩),
  (.pmevtyper16_el0, ⟨1, 3, 14, 14, 0⟩),
  (.pmevtyper17_el0, ⟨1, 3, 14, 14, 1⟩),
  (.pmevtyper18_el0, ⟨1, 3, 14, 14, 2⟩),
  (.pmevtyper19_el0, ⟨1, 3, 14, 14, 3⟩),
  (.dbgbvr0_el1, ⟨0, 0, 0, 0, 4⟩),
  (.dbgbcr0_el1, ⟨0, 0, 0, 0, 5⟩),
  (.dbgbvr1_el1, ⟨0, 0, 0, 1, 4⟩),
  (.dbgbcr1_el1, ⟨0, 0, 0, 1, 5⟩),
  (.dbgbvr2_el1, ⟨0, 0, 0, 2, 4⟩),
  (.dbgbcr2_el1, ⟨0, 0, 0, 2, 5⟩),
  (.dbgbvr3_el1, ⟨0, 0, 0, 3, 4⟩),
  (.dbgbcr3_el1, ⟨0, 0, 0, 3, 5⟩),
  (.dbgbvr4_el1, ⟨0, 0, 0, 4, 4⟩),
  (.dbgbcr4_el1, ⟨0, 0, 0, 4, 5⟩),
  (.dbgbvr5_el1, ⟨0, 0, 0, 5, 4⟩),
  (.dbgbcr5_el1, ⟨0, 0, 0, 5, 5⟩),
  (.dbgwvr0_el1, ⟨0, 0, 0, 0, 6⟩),
  (.dbgwcr0_el1, ⟨0, 0, 0, 0, 7⟩)]

/-- Family encodings, piece 6: op0 - 2, op1, CRn, CRm, op2 (log entry 5). -/
def familyEnc6 : List (SysReg × SysEnc) := [
  (.dbgwvr1_el1, ⟨0, 0, 0, 1, 6⟩),
  (.dbgwcr1_el1, ⟨0, 0, 0, 1, 7⟩),
  (.dbgwvr2_el1, ⟨0, 0, 0, 2, 6⟩),
  (.dbgwcr2_el1, ⟨0, 0, 0, 2, 7⟩),
  (.dbgwvr3_el1, ⟨0, 0, 0, 3, 6⟩),
  (.dbgwcr3_el1, ⟨0, 0, 0, 3, 7⟩),
  (.mdscr_el1, ⟨0, 0, 0, 2, 2⟩),
  (.oslar_el1, ⟨0, 0, 1, 0, 4⟩),
  (.oslsr_el1, ⟨0, 0, 1, 1, 4⟩),
  (.mdccsr_el0, ⟨0, 3, 0, 1, 0⟩),
  (.dbgdtr_el0, ⟨0, 3, 0, 4, 0⟩),
  (.dbgdtrx_el0, ⟨0, 3, 0, 5, 0⟩),
  (.trcprgctlr, ⟨0, 1, 0, 1, 0⟩),
  (.trcstatr, ⟨0, 1, 0, 3, 0⟩),
  (.trblimitr_el1, ⟨1, 0, 9, 11, 0⟩),
  (.trbbaser_el1, ⟨1, 0, 9, 11, 2⟩),
  (.trcextinselr0, ⟨0, 1, 0, 8, 4⟩),
  (.trcextinselr1, ⟨0, 1, 0, 9, 4⟩),
  (.trcextinselr2, ⟨0, 1, 0, 10, 4⟩),
  (.trcextinselr3, ⟨0, 1, 0, 11, 4⟩),
  (.trceventctl0r, ⟨0, 1, 0, 8, 0⟩),
  (.trccntvr0, ⟨0, 1, 0, 8, 5⟩),
  (.trccntvr1, ⟨0, 1, 0, 9, 5⟩),
  (.pmblimitr_el1, ⟨1, 0, 9, 10, 0⟩),
  (.pmbptr_el1, ⟨1, 0, 9, 10, 1⟩),
  (.pmsidr_el1, ⟨1, 0, 9, 9, 7⟩)]

/-- The encodings the reset configuration carries: the candidates of R279 and, for the other
registers, those of the Arm family (PRESUMED, log entry 5). -/
def familyEncodings : List (SysReg × SysEnc) :=
  familyEnc0 ++ familyEnc1 ++ familyEnc2 ++ familyEnc3 ++ familyEnc4 ++ familyEnc5 ++ familyEnc6

/-- The place of a register among the 299. -/
def SysReg.idx (r : SysReg) : Fin numSysRegs :=
  ⟨r.ctorIdx, by cases r <;> decide⟩

/-- The register at an encoding, by the parameter `SYSREG_ENC` (R315). -/
def Config.regAt (c : Config) (e : SysEnc) : Option SysReg :=
  (c.sysregEnc.find? (fun p => p.2 == e)).map (·.1)

/-- An encoding of the GIC CPU interface: `ICC_*`, `ICV_*`, `ICH_*` (R500; the ranges PRESUMED). -/
def SysEnc.isGic (e : SysEnc) : Bool :=
  e.o0 == 1 && ((e.op1 == 0 && e.crn == 4 && e.crm == 6 && e.op2 == 0) ||
    (e.crn == 12 && ((e.op1 == 0 && 8 ≤ e.crm.toNat && e.crm.toNat ≤ 12) ||
      (e.op1 == 4 && 8 ≤ e.crm.toNat) || (e.op1 == 6 && e.crm == 12))))

/-- The values the reset state gives the parameters; every other statement about the machine holds
for all of them (DESIGN CHOICE, log entry 4). -/
def resetConfig : Config where
  coreId := 0
  coresAbove := 3
  affinityField := 1
  cacheProtection := true
  spePresent := true
  pmuCounters := .six
  cryptoPresent := true
  l1dSize := .kb64
  l1iSize := .kb64
  l2Size := .kb512
  elaPresent := false
  l2RamTiming := 0
  tlbSizes := ⟨32, 32, 256, 64⟩
  gicDisablePin := false
  cpuBridgeSync := false
  interconnectAtomics := true
  externalMonitor := true
  debugAuthenticated := true
  resetVector := 0
  utilityBusBase := 0x8000000000
  utilityBusMapped := true
  mpmmPage := 9
  ppmcrPlace := 0
  mpmmcrPlace := 0
  retentionTimer := 0
  fpacImplemented := false
  sysregEnc := familyEncodings
  impAccessEl1 := [.imp_cpupwrctlr_el1, .imp_cpuectlr_el1, .imp_cpuectlr2_el1]
  impAccessEl2 := [.imp_cpupwrctlr_el1, .imp_cpuectlr_el1, .imp_cpuectlr2_el1]
  mmuOffData := .device false false false
  busErrors := []
  deviceKeys := []
  pbhaMeaning := Vector.replicate 16 ⟨0, true⟩
  traceFifoDepth := 64
  streamThresholdL1 := 4
  streamThresholdL2 := 128
  streamThresholdL3 := 1024

end Sys2Proof
end

