-- ==== Sys2Proof/Machine/State.lean ====
section
/-! DEFINITION. The state of one Cortex-A715 core, everything the spec gives it, as plain data; the
reasons a step stops; and the machine right after reset. -/

namespace Sys2Proof.Machine

/-- The vector and predicate registers (R72, R73): Zn and Vn are the same 128 bits. -/
structure VecFile where
  v : Vector (BitVec 128) 32
  p : Vector (BitVec 16) 16
  ffr : BitVec 16
  deriving DecidableEq, Repr

/-- `core.tlb` (R82, R144): the L1 instruction TLB and the L1 data TLB, fully associative, and the
two RAMs of the L2 TLB. -/
structure Tlbs where
  l1i : List TlbEntry
  l1d : List TlbEntry
  l2 : List TlbSlot
  deriving DecidableEq, Repr

/-- `core.l1i`, `core.l1d`, `core.l2` (R79 to R81), and what the model keeps beside them: the words
older than memory's that a fetch may still see (R182, R192), the bytes older than memory's that an
access to memory that is not shareable may still see (R168), the blocks whose lines hold an
uncorrected error that no access has met yet, those among them that an eviction has met since the
last step began (R488), and how many L1 data cache accesses and evictions have been made (R490). -/
structure Caches where
  l1i : List InsLine
  l1d : List CacheLine
  l2 : List CacheLine
  old : List OldWord
  older : List Host.Cell
  bad : List Nat
  met : List Nat
  lookups : Nat
  evictions : Nat
  deriving DecidableEq, Repr

/-- The caches of a core right after a Cold reset (R181, R196, R228). -/
def Caches.empty : Caches := ⟨[], [], [], [], [], [], [], 0, 0⟩

/-- `core.mwb_write_streaming` (R83, R205 to R208): the line being gathered, its bytes written so
far, and whether its first store missed in the L1 data cache, so that a linefill is under way; the
lines written in full one after another and not read since; and the mode of the L1, the L2 and the
L3. -/
structure WriteBuffer where
  line : Option Nat
  mask : BitVec 64
  fills : Bool
  full : List Nat
  l1 : Bool
  l2 : Bool
  l3 : Bool
  deriving DecidableEq, Repr

/-- The write buffer with nothing gathered and no stream. -/
def WriteBuffer.idle : WriteBuffer := ⟨none, 0, false, [], false, false, false⟩

/-- Pending asynchronous events (R89): the interrupt inputs, asserted when true; a pending physical
SError with its syndrome; and whether an exception entry has synchronised it, so that its delay is
over (R477). -/
structure IrqLines where
  irq : Bool
  fiq : Bool
  virq : Bool
  vfiq : Bool
  serror : Option (BitVec 25)
  due : Bool
  deriving DecidableEq, Repr

/-- The GIC CPU interface beside its registers (R501, R479): the forwarded interrupts, the active
ones, these as they were before each completion that no context synchronisation event has followed
yet (R308, U13), and the software generated interrupts sent to the Distributor, the latest first
(R505). -/
structure GicIface where
  pending : List GicInt
  active : List GicInt
  activeOld : List (List GicInt)
  sgis : List (SysReg × Word)
  deriving DecidableEq, Repr

/-- Direct access to internal memory (R312): the last RAMINDEX operand, the moment it was written,
whether there has been one since reset, and whether an ISB has followed it. The twelve data
registers are system registers. -/
structure RamAccess where
  index : Word
  moment : Nat
  written : Bool
  synced : Bool
  deriving DecidableEq, Repr

/-- An injection that waits for the access that triggers it: its kind, and the counts of accesses
and evictions when it was armed (R489, R490). -/
structure ArmedError where
  kind : ErrorKind
  lookups : Nat
  evictions : Nat
  deriving DecidableEq, Repr

/-- `core.ras` beside the error record registers (R96): the two interrupt outputs, asserted when
true, the injection countdown, and an armed injection (R489). -/
structure RasUnit where
  faultIrq : Bool
  errIrq : Bool
  countdown : BitVec 32
  armed : Option ArmedError
  deriving DecidableEq, Repr

/-- `core.trace_fifo`, its overflow (R93, R561), the four extended external inputs (R566), what the
comparators match, the external outputs, which are the states of the four events, and the trigger
signal (R560, R563); what the TRBE has accepted and not yet written (R567), and what has gone out on
the trace bus (R562). -/
structure TraceUnit where
  fifo : List TraceElem
  overflow : Bool
  inputs : BitVec 4
  comparators : BitVec 8
  outputs : BitVec 4
  trigger : Bool
  accepted : List TraceElem
  sent : List TraceElem
  deriving DecidableEq, Repr

/-- The trace unit after a Cold reset. -/
def TraceUnit.initial : TraceUnit := ⟨[], false, 0, 0, 0, false, [], []⟩

/-- Statistical profiling: the down-counter (R92) and the micro-operation identified as the sample,
until its record is written (R569). -/
structure SpeUnit where
  countdown : Nat
  sample : Option SpeSample
  deriving DecidableEq, Repr

/-- The debug logic that is not a System register: the Debug Communications Channel (R551), the
halting enable `EDSCR.HDE`, a halt request, Debug state (R555), and the last PMU snapshot (R530).
-/
structure DebugUnit where
  rx : BitVec 32
  tx : BitVec 32
  rxFull : Bool
  txFull : Bool
  hde : Bool
  request : Bool
  halted : Bool
  snapshot : List Word
  deriving DecidableEq, Repr

/-- The debug logic after a Cold reset. -/
def DebugUnit.initial : DebugUnit := ⟨0, 0, false, false, false, false, false, []⟩

/-- The power-management throttle state (R94). -/
structure Throttle where
  mpmmGear : Fin 3
  activity : Nat
  pdpLevel : Fin 3
  dispatchBlock : Bool
  deriving DecidableEq, Repr

/-- A mapping through which an access went: the 4KB page of its address, of its memory key, and the
PBHA value (R178). -/
structure PbhaUse where
  page : Nat
  keyPage : Nat
  pbha : BitVec 4
  deriving DecidableEq, Repr

/-- What the core shows on its buses: the PBHA values of the last access and of the last reads of
stage 1 and of stage 2 descriptors (R174 to R177), the MPAM partition and the poison attribute of
the last access (R480 (d)), the last answer on the utility bus or the debug APB (R523, R557); and
the mappings used so far (R178). -/
structure BusState where
  pbha : BitVec 4
  walkPbha : BitVec 4
  walkPbha2 : BitVec 4
  mpam : BitVec 48
  poison : Bool
  reply : BusReply
  uses : List PbhaUse
  deriving DecidableEq, Repr

/-- A write of a system register that no context synchronisation event has followed: the register,
the name of the instruction's write, which may be that of another view of the register (none for a
write over the utility bus), and the value that the register held before (R308, R620). -/
structure Unsynced where
  reg : SysReg
  via : Option SysReg
  old : Word
  deriving DecidableEq, Repr

/-- The low-power state and its companions (R86 to R88, R304). -/
structure Sleep where
  lowPower : LowPower
  /-- WFI under CORE_PWRDN_EN has masked every interrupt and wake-up event (R304) -/
  wakeMasked : Bool
  /-- `core.clock_temporarily_enabled` (R88) -/
  clockTemp : Bool
  /-- the retention timer has expired (R87) -/
  retentionExpired : Bool
  deriving DecidableEq, Repr

/-- The core. `inbox`, `events`, `draws` and `exclBudget` are the model's own: what outside agents
do next, the accesses made, the number of the draw the next step takes, and how often a
Store-Exclusive of a pair that obeys R379 may still fail before it must succeed. -/
structure State where
  cfg : Config
  x : Vector Word 31
  sp : Vector Word 4
  pc : Word
  pstate : PState
  vec : VecFile
  sys : Vector Word numSysRegs
  /-- the writes of registers since the last context synchronisation event, the latest first
  (R308, R620, U13) -/
  unsynced : List Unsynced
  /-- memory as coherent observers see it, keyed by physical address, the Non-secure space from
  2^40 up (R74, R75) -/
  mem : List Host.Cell
  /-- the allocation tags of memory, keyed by 16-byte granule (R9; log entry 58) -/
  tags : List Host.Cell
  /-- the blocks of memory that hold poison (R480 (d), R487) -/
  poison : List Nat
  monitor : Monitor
  eventReg : Bool
  sleep : Sleep
  power : PowerMode
  tlb : Tlbs
  cache : Caches
  mwb : WriteBuffer
  returnStack : List ReturnEntry
  predictor : Predictor
  irq : IrqLines
  gic : GicIface
  /-- `GICCDISABLE` as sampled at reset (R500) -/
  gicDisabled : Bool
  ram : RamAccess
  ras : RasUnit
  sysCount : Word
  spe : SpeUnit
  dbg : DebugUnit
  osLock : Bool
  trace : TraceUnit
  throttle : Throttle
  bus : BusState
  events : List MemEvent
  inbox : List EnvEvent
  exclBudget : Nat
  draws : Nat
  deriving DecidableEq, Repr

/-- Why the machine stops. -/
inductive Fault where
  /-- an outside agent names a byte outside the two physical address spaces, which does not exist
  (R74, R75); raised by `Machine.handleEvent`; safe: no program of the core reaches it -/
  | addressOutsideMap
  deriving DecidableEq, Repr

/-- What the spec gives no meaning; the machine does not step. Each is safe: nothing is claimed of
a run that meets it. -/
inductive Refusal where
  /-- an instruction without a meaning in `exec`; raised by `exec` -/
  | notModelled (mnemonic : String)
  /-- a word that matches no row belongs to the Arm ARM (R261, D4); raised by `step` -/
  | archA64
  /-- a `SYS` operation other than the four named ones (R314); raised by `execSys` -/
  | archSys
  /-- should-be-one bits (R275 (c)) or register overlaps (U12); raised by `step` and by the
  exclusive instructions -/
  | constrainedUnpredictable
  /-- an exclusive access to memory without an exclusive monitor (R379); raised by exclusives -/
  | exclusiveMemoryType
  /-- big-endian data (R250, U22); raised by `step`, data accesses and walks -/
  | bigEndian
  /-- two TLB entries match with different translations (R165, U9); raised by translation -/
  | tlbConflict
  /-- mismatched PBHA aliases that are not data-neutral (R178, U3); raised by accesses and fetches
  -/
  | pbhaAlias
  /-- a Device page that is executable, or a fetch from a device address (R186); raised by
  translation and fetch -/
  | executableDevice
  /-- a set, way or level that does not exist (R414, U11); raised by `execDcCisw` -/
  | setWayOutOfRange
  /-- a direct-access data register read with no RAMINDEX before it since reset, or no ISB after
  that (R312, U5); raised by `execMrs` -/
  | ramDataUnsynced
  /-- `pc + 4` overflows 64 bits (R44); raised by every instruction that advances -/
  | pcOverflow
  /-- a power mode or transition that is not in R576 (U1); raised by `handleEvent` -/
  | illegalPowerMode
  /-- Debug recovery mode (R579, U2); raised by `handleEvent` and `step` -/
  | debugRecovery
  deriving DecidableEq, Repr

/-- The outcome of a step or of an instruction. -/
abbrev Out := Host.Outcome State Fault Refusal

/-- PSTATE after reset (R45, R97, R605); NZCV and the later fields are a DESIGN CHOICE (log entries
1, 3). -/
def resetPState : PState where
  n := false
  z := false
  c := false
  v := false
  d := true
  a := true
  i := true
  f := true
  el := 3
  sp := true
  nRW := false
  ss := false
  il := false
  pan := false
  uao := false
  dit := false
  tco := false
  ssbs := false
  btype := 0

/-- The system registers that are not 0 after reset: `RMR_EL3.AA64`, `SCR_EL3.RW` and `HCR_EL2.RW`
are 1 (R71, R604), `IMP_CPUPWRCTLR_EL1` holds `RETENTION_TIMER` (D13), and the values of the family
where the layout is the family's (PRESUMED, log entry 55). -/
def resetValues (cfg : Config) : List (SysReg × Word) :=
  [(.rmr_el3, 1), (.scr_el3, 1#64 <<< 10), (.hcr_el2, 1#64 <<< 31), (.sctlr_el1, 0x00C50838),
   (.sctlr_el2, 0x30C50838), (.sctlr_el3, 0x00C50838),
   (.imp_cpupwrctlr_el1, cfg.retentionTimer &&& ~~~1#64),
   (.mdcr_el2, BitVec.ofNat 64 cfg.pmuCounters.count), (.icc_bpr0_el1, 2), (.icc_bpr1_el1, 3),
   (.icc_bpr1_el1_ns, 3),
   (.icc_sre_el1, 0x7), (.icc_sre_el2, 0xF), (.icc_sre_el3, 0xF)]

/-- The system registers after reset: the values above, the rest 0 (log entry 2). -/
def resetSys (cfg : Config) : Vector Word numSysRegs :=
  (resetValues cfg).foldl (fun v p => v.set p.1.idx p.2) (Vector.replicate numSysRegs 0)

/-- The machine right after a Cold reset with the parameters `cfg` (R97, R600, R605). -/
def State.resetWith (cfg : Config) : State where
  cfg := cfg
  x := Vector.replicate 31 0
  sp := Vector.replicate 4 0
  pc := cfg.resetVector.setWidth 64
  pstate := resetPState
  vec := ⟨Vector.replicate 32 0, Vector.replicate 16 0, 0⟩
  sys := resetSys cfg
  unsynced := []
  mem := []
  tags := []
  poison := []
  monitor := .opened
  eventReg := false
  sleep := ⟨.running, false, false, false⟩
  power := .on
  tlb := ⟨[], [], []⟩
  cache := .empty
  mwb := .idle
  returnStack := []
  predictor := ⟨[], [], []⟩
  irq := ⟨false, false, false, false, none, false⟩
  gic := ⟨[], [], [], []⟩
  gicDisabled := cfg.gicDisablePin
  ram := ⟨0, 0, false, false⟩
  ras := ⟨false, false, 0, none⟩
  sysCount := 0
  spe := ⟨0, none⟩
  dbg := .initial
  osLock := true
  trace := .initial
  throttle := ⟨0, 0, 0, false⟩
  bus := ⟨0, 0, 0, 0, false, .none, []⟩
  events := []
  inbox := []
  exclBudget := 0
  draws := 0

/-- The machine right after a Cold reset (R97, R600), with the parameters of `resetConfig`. -/
def State.reset : State := State.resetWith resetConfig

end Sys2Proof.Machine
end

