-- ==== Sys2Proof/Machine/Control.lean ====
section
/-! DEFINITION. Reading state: free values at the current draw, system registers, the value of a
control register as the hardware sees it and as an MRS of another of its names reads it, and the
levels, Security state and regimes they fix. -/

namespace Sys2Proof.Machine

/-- A free bit, number and word of this draw (R21 `draw`). -/
def State.drawBool (s : State) (k : FreeKind) (i : Nat) : Bool := Config.freeBool k s.draws i
def State.drawNat (s : State) (k : FreeKind) (i : Nat) : Nat := Config.freeNat k s.draws i
def State.drawWord (s : State) (k : FreeKind) (i : Nat) : Word := Config.freeWord k s.draws i

/-- The element of a non-empty list of possibilities that this draw takes; the only one if there
is only one. -/
def State.choose {α : Type} (s : State) (k : FreeKind) (i : Nat) (first : α) (rest : List α) : α :=
  match rest with
  | [] => first
  | _ :: _ => (first :: rest).getD (s.drawNat k i % (rest.length + 1)) first

/-- The stored value of a system register, as MRS reads it (R315). -/
def State.get (s : State) (r : SysReg) : Word := s.sys[r.idx.val]

/-- Stores a system register. -/
def State.put (s : State) (r : SysReg) (v : Word) : State :=
  { s with sys := s.sys.set r.idx.val v }

/-- The values a register written since the last context synchronisation event held before. -/
def State.olds (s : State) (r : SysReg) : List Word :=
  (s.unsynced.filter (fun u => u.reg == r)).map (·.old)

/-- A control register as the hardware sees it: its value, or, until a context synchronisation
event, any value between the old and the new (R620, U13). -/
def State.ctl (s : State) (r : SysReg) : Word :=
  s.choose .hazard r.idx.val (s.get r) (s.olds r)

/-- Registers whose writes later instructions see without a context synchronisation event: the
views of PSTATE, FPCR and FPSR, the stack pointers, the registers of an exception that its handler
and its return read, and those whose write is itself an action: the OS Lock, the Debug
Communications Channel, the status and the injection registers of the error record, and the software
generated interrupts (R308; the list PRESUMED, log entry 16). -/
def selfSynchronising (r : SysReg) : Bool :=
  match r.info.group with
  | .pstate => true
  | .fp => true
  | _ => match r with
    | .elr_el1 | .elr_el2 | .elr_el3 | .spsr_el1 | .spsr_el2 | .spsr_el3 => true
    | .esr_el1 | .esr_el2 | .esr_el3 | .far_el1 | .far_el2 | .far_el3 | .hpfar_el2 => true
    | .sp_el0 | .sp_el1 | .sp_el2 | .disr_el1 | .vdisr_el2 | .oslar_el1 => true
    | .dbgdtr_el0 | .dbgdtrx_el0 | .erxstatus_el1 | .erxpfgctl_el1 | .erxpfgcdn_el1 => true
    | .icc_sgi0r_el1 | .icc_sgi1r_el1 | .icc_asgi1r_el1 => true
    | _ => false

/-- Stores a register by a write that names `via`; until a context synchronisation event later
instructions may see the old value (R308, R620, U13). -/
def State.putThrough (s : State) (r : SysReg) (via : Option SysReg) (v : Word) : State :=
  { s.put r v with
    unsynced := if selfSynchronising r then s.unsynced else ⟨r, via, s.get r⟩ :: s.unsynced }

/-- Stores a register by a write that names it. -/
def State.putControl (s : State) (r : SysReg) (v : Word) : State := s.putThrough r (some r) v

/-- A unit of the core changes a register on its own: later instructions see that at once, in the
old values that may still be seen too (log entry 16). -/
def State.putByUnit (s : State) (r : SysReg) (f : Word → Word) : State :=
  { s.put r (f (s.get r)) with
    unsynced := s.unsynced.map fun u => if u.reg == r then { u with old := f u.old } else u }

/-- The register takes writes of single bits: through its own name, which sets them, and through the
name that clears them (R316). -/
def writesBits (r : SysReg) : Bool :=
  match r with
  | .pmcntenset_el0 | .pmovsset_el0 | .pmintenset_el1 | .amcntenset0_el0 | .amcntenset1_el0 => true
  | _ => false

/-- A word with the bits that differ between `old` and `new` as they are in `new`. -/
def replayBits (old new w : Word) : Word := (w &&& ~~~(old ^^^ new)) ||| (new &&& (old ^^^ new))

/-- The values other than `new` that a read through `name` may give of a register with these writes:
the writes through its other views may not be seen yet, those through `name` are (R308). A write of
single bits leaves the others as the earlier writes do; any other write leaves nothing of them. -/
def otherViews (bits : Bool) (name : SysReg) (new : Word) : List Unsynced → List Word
  | [] => []
  | u :: rest =>
    if u.via = some name then
      (if bits then (otherViews bits name u.old rest).map (replayBits u.old new) else [])
    else u.old :: otherViews bits name u.old rest

/-- A register as an MRS of `name`, which is a view of it, reads it: with every write through that
name, and with those through the others seen or not until a context synchronisation event (R308,
R620, U13; log entry 16). -/
def State.seenAs (s : State) (name r : SysReg) : Word :=
  s.choose .hazard r.idx.val (s.get r)
    (otherViews (writesBits r) name (s.get r) (s.unsynced.filter (fun u => u.reg == r)))

/-- The register of a level among the three of one kind; EL0 uses that of EL1. -/
def atLevel (e : EL) (r1 r2 r3 : SysReg) : SysReg :=
  if e = 3 then r3 else if e = 2 then r2 else r1

def spsrOf (e : EL) : SysReg := atLevel e .spsr_el1 .spsr_el2 .spsr_el3
def elrOf (e : EL) : SysReg := atLevel e .elr_el1 .elr_el2 .elr_el3
def esrOf (e : EL) : SysReg := atLevel e .esr_el1 .esr_el2 .esr_el3
def farOf (e : EL) : SysReg := atLevel e .far_el1 .far_el2 .far_el3
def vbarOf (e : EL) : SysReg := atLevel e .vbar_el1 .vbar_el2 .vbar_el3
def sctlrOf (e : EL) : SysReg := atLevel e .sctlr_el1 .sctlr_el2 .sctlr_el3

/-- The current Exception level (R510). -/
def State.el (s : State) : EL := s.pstate.el

def State.scr (s : State) : Word := s.ctl .scr_el3
def State.hcr (s : State) : Word := s.ctl .hcr_el2

/-- The levels below EL3 are Non-secure: `SCR_EL3.NS` (R511). -/
def State.nsBelow (s : State) : Bool := bit s.scr 0

/-- The current Security state is Secure: EL3 always, below it by `SCR_EL3.NS` (R511). -/
def State.secure (s : State) : Bool := s.el == 3 || !s.nsBelow

/-- EL2 exists in the Security state below EL3: Non-secure, or Secure with `SCR_EL3.EEL2` (R466). -/
def State.el2Enabled (s : State) : Bool := s.nsBelow || bit s.scr 18

/-- `HCR_EL2.TGE` and `HCR_EL2.E2H`, where EL2 is enabled (bit positions PRESUMED, log entry 12). -/
def State.tge (s : State) : Bool := s.el2Enabled && bit s.hcr 27
def State.e2h (s : State) : Bool := s.el2Enabled && bit s.hcr 34

/-- A bit of HCR_EL2 that acts on EL0 and EL1 while EL2 is enabled. -/
def State.hcrBelow (s : State) (i : Nat) : Bool := s.el2Enabled && s.el < 2 && bit s.hcr i

/-- EL0 runs under the EL2&0 regime: `E2H` and `TGE` (R147). -/
def State.hostEl0 (s : State) : Bool := s.el == 0 && s.e2h && s.tge

/-- The level whose registers control translation at the current level. -/
def State.regimeEl (s : State) : EL :=
  if s.hostEl0 then 2 else if s.el = 0 then 1 else s.el

/-- The translation regime in use (R147). -/
def State.regime (s : State) : Regime :=
  if s.el = 3 then .el3
  else if s.el = 2 then
    match s.nsBelow, s.e2h with
    | true, true => .nsEl20
    | true, false => .nsEl2
    | false, true => .secureEl20
    | false, false => .secureEl2
  else if s.hostEl0 then (if s.nsBelow then .nsEl20 else .secureEl20)
  else if s.nsBelow then .nsEl10 else .secureEl10

/-- SCTLR of the regime in use (R71). -/
def State.sctlr (s : State) : Word := s.ctl (sctlrOf s.regimeEl)

/-- The data cache is enabled: `SCTLR_ELx.C` (R198). -/
def State.cachesOn (s : State) : Bool := bit s.sctlr 2

/-- Stage 1 translation is on: `SCTLR_ELx.M`, which `TGE` turns off for EL0 (R153). -/
def State.stage1On (s : State) : Bool :=
  bit s.sctlr 0 && !(s.el == 0 && s.tge && !s.e2h)

/-- Stage 2 translation is on: EL1&0 with `HCR_EL2.VM` and EL2 enabled (R141, R150). -/
def State.stage2On (s : State) : Bool :=
  s.hcrBelow 0 && !(s.el == 0 && s.tge)

/-- A big-endian byte order is set somewhere: `SCTLR_ELx.EE` [25], or `E0E` [24] of a register that
governs EL0. Such a state is refused (R250, D1). -/
def State.bigEndian (s : State) : Bool :=
  bit (s.get .sctlr_el1) 25 || bit (s.get .sctlr_el2) 25 || bit (s.get .sctlr_el3) 25 ||
    bit (s.get .sctlr_el1) 24 || bit (s.get .sctlr_el2) 24

/-- `HCR_EL2.VSE` [8] cleared by hardware (R461, R620). -/
def State.clearVse (s : State) : State := s.putByUnit .hcr_el2 fun w => withBit w 8 false

end Sys2Proof.Machine
end

