-- ==== Sys2Proof/Machine/Flags.lean ====
section
/-! DEFINITION. PSTATE and its forms: the packing into SPSR_ELx and back (R464, R467), and the
views of PSTATE fields as registers. No instruction of the table computes a condition flag; N, Z,
C and V change only by exception return, by reset and by a write of NZCV (R45). -/

namespace Sys2Proof.Machine

/-- PSTATE packed into SPSR_ELx (R464). -/
def packPState (p : PState) : Word :=
  flagAt p.n 31 ||| flagAt p.z 30 ||| flagAt p.c 29 ||| flagAt p.v 28 ||| flagAt p.tco 25 |||
  flagAt p.dit 24 ||| flagAt p.uao 23 ||| flagAt p.pan 22 ||| flagAt p.ss 21 ||| flagAt p.il 20 |||
  flagAt p.ssbs 12 ||| (p.btype.setWidth 64 <<< 10) ||| flagAt p.d 9 ||| flagAt p.a 8 |||
  flagAt p.i 7 ||| flagAt p.f 6 ||| flagAt p.nRW 4 ||| (BitVec.ofNat 64 p.el.val <<< 2) |||
  flagAt p.sp 0

/-- SPSR_ELx unpacked into PSTATE, the inverse of `packPState` (R467). -/
def unpackPState (w : Word) : PState where
  n := bit w 31
  z := bit w 30
  c := bit w 29
  v := bit w 28
  d := bit w 9
  a := bit w 8
  i := bit w 7
  f := bit w 6
  el := Fin.ofNat 4 (field w 2 2)
  sp := bit w 0
  nRW := bit w 4
  ss := bit w 21
  il := bit w 20
  pan := bit w 22
  uao := bit w 23
  dit := bit w 24
  tco := bit w 25
  ssbs := bit w 12
  btype := w.extractLsb' 10 2

/-- The views of PSTATE as registers, in the bit places of the family (PRESUMED, log entry 13). -/
def readPStateView (p : PState) (r : SysReg) : Word :=
  match r with
  | .nzcv => flagAt p.n 31 ||| flagAt p.z 30 ||| flagAt p.c 29 ||| flagAt p.v 28
  | .daif => flagAt p.d 9 ||| flagAt p.a 8 ||| flagAt p.i 7 ||| flagAt p.f 6
  | .currentel => BitVec.ofNat 64 p.el.val <<< 2
  | .spsel => flagAt p.sp 0
  | .pan => flagAt p.pan 22
  | .uao => flagAt p.uao 23
  | .dit => flagAt p.dit 24
  | .ssbs => flagAt p.ssbs 12
  | .tco => flagAt p.tco 25
  | _ => 0

/-- Writes a view of PSTATE (PRESUMED, log entry 13). -/
def writePStateView (p : PState) (r : SysReg) (w : Word) : PState :=
  match r with
  | .nzcv => { p with n := bit w 31, z := bit w 30, c := bit w 29, v := bit w 28 }
  | .daif => { p with d := bit w 9, a := bit w 8, i := bit w 7, f := bit w 6 }
  | .spsel => { p with sp := bit w 0 }
  | .pan => { p with pan := bit w 22 }
  | .uao => { p with uao := bit w 23 }
  | .dit => { p with dit := bit w 24 }
  | .ssbs => { p with ssbs := bit w 12 }
  | .tco => { p with tco := bit w 25 }
  | _ => p

end Sys2Proof.Machine
end

