-- ==== Sys2Proof/Machine/Memory.lean ====
section
/-! DEFINITION. Memory as a list of cells in one canonical form: keys strictly rising, no cell that
holds what an unlisted key reads as. -/

namespace Sys2Proof.Machine

/-- What a byte that nothing has written reads as. DESIGN CHOICE: 0 (log entry 6). -/
def Memory.unwritten : Byte := 0

/-- The byte at a key. -/
def Memory.read : List Host.Cell → Nat → Byte
  | [], _ => Memory.unwritten
  | (k, b) :: rest, a => if a = k then b else Memory.read rest a

/-- Writes the byte at a key, keeping the canonical form. -/
def Memory.write : List Host.Cell → Nat → Byte → List Host.Cell
  | [], a, v => if v = Memory.unwritten then [] else [(a, v)]
  | (k, b) :: rest, a, v =>
    if a < k then
      if v = Memory.unwritten then (k, b) :: rest else (a, v) :: (k, b) :: rest
    else if a = k then
      if v = Memory.unwritten then rest else (a, v) :: rest
    else (k, b) :: Memory.write rest a v

/-- The canonical form. -/
abbrev Memory.wf (m : List Host.Cell) : Prop :=
  m.Pairwise (fun c d => c.1 < d.1) ∧ ∀ c ∈ m, c.2 ≠ Memory.unwritten

/-- The `n` bytes from a key up. -/
def Memory.readBytes (m : List Host.Cell) (a : Nat) : Nat → List Byte
  | 0 => []
  | n + 1 => Memory.read m a :: Memory.readBytes m (a + 1) n

/-- Writes bytes from a key up, the first at the key. -/
def Memory.writeBytes : List Host.Cell → Nat → List Byte → List Host.Cell
  | m, _, [] => m
  | m, a, b :: bs => Memory.writeBytes (Memory.write m a b) (a + 1) bs

/-- The value of `n` bytes, little-endian (`MemRead`, R250). -/
def Memory.readLE (m : List Host.Cell) (a n : Nat) : Data := ofBytes (Memory.readBytes m a n)

/-- Stores the low `n` bytes of a value, little-endian (`MemWrite`, R250). -/
def Memory.writeLE (m : List Host.Cell) (a n : Nat) (v : Data) : List Host.Cell :=
  Memory.writeBytes m a (bytesOf n v)

/-- The instruction word at a key (R262). -/
def Memory.readWord (m : List Host.Cell) (a : Nat) : Ins :=
  (Memory.readLE m a 4).setWidth 32

/-- The key of a byte: its physical address, the Non-secure space above the Secure one (R75). -/
def memKey (pa : BitVec 40) (ns : Bool) : Nat := pa.toNat + (if ns then 2 ^ 40 else 0)

/-- The keys that exist: two spaces of 2^40 bytes (R75). -/
def memKeyLimit : Nat := 2 ^ 41

end Sys2Proof.Machine
end

