-- ==== Sys2Proof/Machine/Ops.lean ====
section
/-! DEFINITION. The named operations every meaning is built from: registers, advancing and
branching, the monitor, taking an exception and returning from one. -/

namespace Sys2Proof.Machine

/-! Registers (R43, R514) -/

/-- `x[r]`: 31 reads as zero (R21, R43). -/
def State.xr (s : State) (r : Reg) : Word :=
  if h : r.toNat < 31 then s.x[r.toNat] else 0

/-- `x[r] <- v`: a write to 31 is discarded (R21, R43). -/
def State.setX (s : State) (r : Reg) (v : Word) : State :=
  if h : r.toNat < 31 then { s with x := s.x.set r.toNat v } else s

/-- Which stack pointer is current: SP_EL0 when `PSTATE.SP` is 0, else that of the level (R514). -/
def State.spIndex (s : State) : EL := if s.pstate.sp then s.el else 0

/-- The current stack pointer. -/
def State.spCur (s : State) : Word := s.sp[s.spIndex.val]

/-- A base or modifier register, where 31 is SP (R43, R351). -/
def State.base (s : State) (r : Reg) : Word := if r = 31 then s.spCur else s.xr r

/-- A register as the `n`-byte data of an access: `x[r][8n-1:0]`. -/
def State.xData (s : State) (r : Reg) (n : Nat) : Data := lowBytes n ((s.xr r).setWidth 128)

/-- `x[r] <- zext_64(v[8n-1:0])`; the W forms clear bits [63:32] (R43). -/
def State.setXData (s : State) (r : Reg) (n : Nat) (v : Data) : State :=
  s.setX r ((lowBytes n v).setWidth 64)

/-! Sequencing (R44, R346, R560) -/

/-- The trace unit is on: `TRCPRGCTLR.EN`, bit 0 (R565; place PRESUMED, log entry 12). -/
def State.traceOn (s : State) : Bool := bit (s.ctl .trcprgctlr) 0

/-- The filters of the trace unit pass an element: which they pass is free (R560; log entry 41). -/
def State.tracePasses (s : State) : Bool := s.traceOn && s.drawBool .traceFilter 0

/-- A P0 element that is traced enters the trace FIFO; when the FIFO becomes full it signals an
overflow, and takes no more until it is emptied (R93, R560, R561). -/
def State.traceP0 (s : State) (e : TraceElem) : State :=
  if s.tracePasses && !s.trace.overflow then
    if s.trace.fifo.length < s.cfg.traceFifoDepth then
      { s with trace := { s.trace with
          fifo := s.trace.fifo ++ [e]
          overflow := s.cfg.traceFifoDepth ≤ s.trace.fifo.length + 1 } }
    else { s with trace := { s.trace with overflow := true } }
  else s

/-- The end of an instruction that does not branch: its effect `f`, `pc <- pc + 4`, refused where
that overflows 64 bits (R44), and `PSTATE.BTYPE` becomes 0. -/
def State.advanceWith (s : State) (f : State → State) : Out :=
  if s.pc.toNat + 4 < 2 ^ 64 then
    .next (f { s with pc := s.pc + 4, pstate := { s.pstate with btype := 0 } })
  else .refused .pcOverflow

/-- An instruction whose only effect is `pc <- pc + 4`. -/
def State.advance (s : State) : Out := s.advanceWith id

/-- What the program flow prediction learns of a taken branch at `pc`, while the MMU is on (R84,
R341, R344): a register call leaves `btype` other than 0 and is an indirect branch. -/
def State.learn (s : State) (target : Word) (btype : BitVec 2) : Predictor :=
  if s.stage1On then
    { btb := (s.pc, target) :: s.predictor.btb.filter (·.1 != s.pc)
      history := true :: s.predictor.history
      indirect := if btype = 0 then s.predictor.indirect
        else (s.pc, target) :: s.predictor.indirect.filter (·.1 != s.pc) }
  else s.predictor

/-- A taken branch: `pc <- target`, `PSTATE.BTYPE` as the branch leaves it (R348, R349). -/
def State.branchTo (s : State) (target : Word) (btype : BitVec 2) : State :=
  { s.traceP0 (.branch s.pc target) with
    pc := target, pstate := { s.pstate with btype := btype }, predictor := s.learn target btype }

/-- A push of the return stack (R346). Its depth is not in the spec: the model's has no bound, and
a pop of the empty stack leaves it empty; and it works also with the MMU off, where the rest of the
prediction is disabled (R341; DESIGN CHOICE, log entry 59). -/
def State.pushReturn (s : State) (a : Word) : State :=
  { s with returnStack := ⟨a, .a64⟩ :: s.returnStack }

/-- A pop of the return stack (R346), also with the MMU off (R341; log entry 59). -/
def State.popReturn (s : State) : State := { s with returnStack := s.returnStack.drop 1 }

/-! Context synchronisation (R308, R309, R620) -/

/-- The old words that a fetch may still see after a context synchronisation event: those
invalidated in the instruction cache are held no longer (R192). -/
def syncOld (l : List OldWord) : List OldWord :=
  (l.map fun w => if w.invalidated then { w with held := false, invalidated := false } else w).filter
    fun w => w.held || w.below

/-- A context synchronisation event: every earlier write of a system register is in effect, a
RAMINDEX write is separated from the data-register reads that follow (R312), and instructions are
fetched anew (R192). -/
def State.contextSync (s : State) : State :=
  { s with
    unsynced := []
    gic := { s.gic with activeOld := [] }
    ram := { s.ram with synced := s.ram.written }
    cache := { s.cache with old := syncOld s.cache.old } }

/-! The exclusive monitor (R372 to R377) -/

/-- `core.monitor <- Open`. -/
def State.openMonitor (s : State) : State := { s with monitor := .opened }

/-- The tag of a physical address: bits [39:6] (R372). -/
def tagOf (pa : BitVec 40) : BitVec 34 := pa.extractLsb' 6 34

/-- The monitor holds the block of `pa` (R374). -/
def State.monitorHolds (s : State) (pa : BitVec 40) (ns : Bool) : Bool :=
  s.monitor == .exclusive (tagOf pa) ns

/-- A store of this core that is not exclusive, into the tagged block: whether it clears the
monitor is free (R376). -/
def State.ownStore (s : State) (pa : BitVec 40) (ns : Bool) : State :=
  if s.monitorHolds pa ns then
    { s with monitor :=
        if s.drawBool .monitorOwnStore 0 then .opened else .exclusive (tagOf pa) ns }
  else s

/-- The record of an access for the memory model (R253). -/
def State.record (s : State) (e : MemEvent) : State := { s with events := s.events ++ [e] }

/-! Taking an exception (R464 to R468) -/

/-- What happens to FAR_ELx at an exception (R460, R461). -/
inductive FarUpdate where
  | write (va : Word)
  | unknown
  | keep
  deriving DecidableEq, Repr

/-- The columns of the vector table (R465). -/
inductive VectorColumn where
  | sync
  | irq
  | fiq
  | serror
  deriving DecidableEq, Repr

def VectorColumn.offset (c : VectorColumn) : Word :=
  match c with
  | .sync => 0x000
  | .irq => 0x080
  | .fiq => 0x100
  | .serror => 0x180

/-- The row of the vector table (R465); the level below the target is always in AArch64. -/
def State.vectorRow (s : State) (t : EL) : Word :=
  if t = s.el then (if s.pstate.sp then 0x200 else 0x000) else 0x400

/-- `ESR_ELx` of a class and its syndrome, for a 32-bit instruction (R451). -/
def esrWord (ec : Nat) (iss : BitVec 25) : Word :=
  (BitVec.ofNat 64 ec <<< 26) ||| flagAt true 25 ||| iss.setWidth 64

/-- An exception to take: its target, column, preferred return address, syndrome when it records
one, and its effects on FAR and HPFAR_EL2. -/
structure Entry where
  target : EL
  column : VectorColumn
  ret : Word
  esr : Option Word
  far : FarUpdate
  hpfar : Option Word
  deriving DecidableEq, Repr

/-- PSTATE of the handler at level `t` (R464). -/
def State.handlerPState (s : State) (t : EL) : PState :=
  { s.pstate with
    d := true, a := true, i := true, f := true
    el := t, sp := true, nRW := false, ss := false, il := false, btype := 0
    pan := if (t = 1 || (t = 2 && s.e2h && s.tge)) && !bit (s.ctl (sctlrOf t)) 23 then true
      else s.pstate.pan
    uao := false, tco := true, ssbs := bit (s.ctl (sctlrOf t)) 44 }

/-- The exception registers an entry writes: SPSR, ELR, and ESR, FAR, HPFAR as it says (R464,
R460). -/
def State.saveException (s : State) (e : Entry) : State :=
  let s1 := (s.put (spsrOf e.target) (packPState s.pstate)).put (elrOf e.target) e.ret
  let s2 := match e.esr with
    | some v => s1.put (esrOf e.target) v
    | none => s1
  let s3 := match e.far with
    | .write va => s2.put (farOf e.target) va
    | .unknown => s2.put (farOf e.target) (s.drawWord .farUnknown 0)
    | .keep => s2
  match e.hpfar with
  | some v => s3.put .hpfar_el2 v
  | none => s3

/-- The monitor after exception entry: whether it is cleared is free (R377). -/
def State.monitorAfterEntry (s : State) : Monitor :=
  if s.monitor == .opened then .opened
  else if s.drawBool .monitorAtEntry 0 then .opened else s.monitor

/-- The address of the handler: VBAR of the target, its low 11 bits 0, plus row and column
(R465). -/
def State.vectorAddress (s : State) (t : EL) (c : VectorColumn) : Word :=
  (s.ctl (vbarOf t) &&& ~~~0x7FF#64) + (s.vectorRow t + c.offset)

/-- `TakeException` (R464). With `SCTLR_ELx.IESB` [21] of the target a pending SError is
synchronised (R477; place PRESUMED, log entry 12). -/
def State.takeException (s : State) (e : Entry) : State :=
  let t := ((s.saveException e).traceP0 (.exception e.target e.ret)).contextSync
  { t.record .disturbance with
    pstate := s.handlerPState e.target
    monitor := s.monitorAfterEntry
    pc := s.vectorAddress e.target e.column
    irq := { s.irq with due := s.irq.due ||
      (s.irq.serror.isSome && bit (s.ctl (sctlrOf e.target)) 21) }
    sleep := { s.sleep with lowPower := .running } }

/-- Where a synchronous exception goes: EL1 from EL0, or EL2 under `TGE`; else the level it comes
from (R466 (a)). -/
def State.syncTarget (s : State) : EL := if s.el = 0 then (if s.tge then 2 else 1) else s.el

/-- A synchronous exception of the instruction at `pc` that leaves FAR unknown (R460). -/
def State.takeSync (s : State) (t : EL) (ec : Nat) (iss : BitVec 25) : State :=
  s.takeException ⟨t, .sync, s.pc, some (esrWord ec iss), .unknown, none⟩

/-- An Undefined Instruction exception (R452): class 0, no other effect of the instruction. -/
def State.undefined (s : State) : State := s.takeSync s.syncTarget 0x00 0

/-- A trapped MRS, MSR or SYS (R457 (b)). -/
def sysIss (op0 : Nat) (op1 : BitVec 3) (crn crm : BitVec 4) (op2 : BitVec 3) (rt : Reg)
    (read : Bool) : BitVec 25 :=
  BitVec.ofNat 25 (op0 * 2 ^ 20 + op2.toNat * 2 ^ 17 + op1.toNat * 2 ^ 14 + crn.toNat * 2 ^ 10 +
    rt.toNat * 2 ^ 5 + crm.toNat * 2 + (if read then 1 else 0))

/-! Returning from an exception (R467) -/

/-- The state that `SPSR_ELx` names is not one a return from the current level may enter (R467). -/
def State.illegalReturn (s : State) (w : Word) : Bool :=
  let t : EL := Fin.ofNat 4 (field w 2 2)
  s.el < t || bit w 4 || bit w 1 || (t == 0 && bit w 0) || (t == 2 && !s.el2Enabled) ||
    (t == 1 && s.tge)

/-- PSTATE after a return with `SPSR_ELx = w` (R467). -/
def State.returnPState (s : State) (w : Word) : PState :=
  if s.illegalReturn w then
    { unpackPState w with il := true, el := s.pstate.el, sp := s.pstate.sp, nRW := s.pstate.nRW }
  else unpackPState w

/-- Exception return to `target` from level 1 or above (R467): PSTATE from SPSR, the monitor open,
the event register set (R77), a context synchronisation event. -/
def State.exceptionReturn (s : State) (target : Word) : State :=
  let t := (s.traceP0 (.branch s.pc target)).contextSync
  { t with
    pstate := s.returnPState (s.get (spsrOf s.el))
    pc := target
    monitor := .opened
    eventReg := true }

end Sys2Proof.Machine
end

