-- ==== Sys2Proof/Machine/Caches.lean ====
section
/-! DEFINITION. The lists of lines that make the L1 data cache and the L2 cache: blocks, places, and
what allocating, moving, marking and dropping a line does to them (R79 to R81, R195 to R231). -/

namespace Sys2Proof.Machine

/-- The 64-byte block of a key (R371, R79 to R81). -/
def blockOf (key : Nat) : Nat := key / 64

/-- The bytes of a block as memory shows them. -/
def blockBytes (m : List Host.Cell) (b : Nat) : List Byte := Memory.readBytes m (b * 64) 64

/-- The sets of the L1 data cache, the L1 instruction cache and the L2 cache: size / (ways * 64)
(R55). -/
def l1dSets (c : Config) : Nat := c.l1dSize.kb * 1024 / 256
def l1iSets (c : Config) : Nat := c.l1iSize.kb * 1024 / 256
def l2Sets (c : Config) : Nat := c.l2Size.kb * 1024 / 512

/-- The cache without the line of a block. -/
def dropBlock (l : List CacheLine) (b : Nat) : List CacheLine := l.filter (fun e => e.block != b)

/-- The cache holds a line of the block. -/
def holdsBlock (l : List CacheLine) (b : Nat) : Bool := l.any (fun e => e.block == b)

/-- A line after a store into it: Modified, keeping what memory held below it (R200, R416). -/
def dirtied (e : CacheLine) (old : List Byte) : CacheLine :=
  if e.mesi = .modified then e else { e with mesi := .modified, below := old }

/-- Marks the line of a block as stored to. -/
def dirtyBlock (l : List CacheLine) (b : Nat) (old : List Byte) : List CacheLine :=
  l.map (fun e => if e.block == b then dirtied e old else e)

/-- The line is at a place of the cache. -/
def lineAt (e : CacheLine) (set way : Nat) : Bool := e.set == set && e.way == way

/-- The blocks with an uncorrected error among some lines whose data an eviction moves (R488). -/
def Caches.meets (c : Caches) (moved : List CacheLine) : List Nat :=
  (moved.map (·.block)).filter c.bad.contains

/-- The line is dirty. -/
def isDirty (e : CacheLine) : Bool := e.mesi == .modified

/-- Puts a line into the L1 data cache. The line it displaces goes to the L2 cache at the place
given, unless it is transient (R172), and no block stays in both (R227). The eviction meets the
errors in the data that leaves for the L2 cache or for memory (R488); a clean line that only goes
leaves its error with the block (DESIGN CHOICE, log entry 67). -/
def Caches.insertL1 (c : Caches) (line : CacheLine) (l2set l2way : Nat) : Caches :=
  let others := dropBlock c.l1d line.block
  let victims := others.filter (fun e => lineAt e line.set line.way)
  let moved := (victims.filter (fun v => !v.transient)).map
    (fun v => { v with set := l2set, way := l2way })
  let gone (e : CacheLine) : Bool := victims.any (fun v => v.block == e.block)
  let behind := (dropBlock c.l2 line.block).filter (fun e => !gone e)
  let stays (e : CacheLine) : Bool := moved.isEmpty || !lineAt e l2set l2way
  { c with
    l1d := line :: others.filter (fun e => !gone e)
    l2 := moved ++ behind.filter stays
    met := c.met ++ c.meets (victims.filter (fun v => !v.transient || isDirty v) ++
      behind.filter (fun e => !stays e && isDirty e))
    evictions := c.evictions + victims.length }

/-- Puts a line into the L2 cache, where neither cache holds its block (R227). A dirty line that it
displaces goes to memory, and its error is met (R488). -/
def Caches.insertL2 (c : Caches) (line : CacheLine) : Caches :=
  if holdsBlock c.l1d line.block || holdsBlock c.l2 line.block then c
  else { c with
    l2 := line :: c.l2.filter (fun e => !lineAt e line.set line.way)
    met := c.met ++ c.meets (c.l2.filter fun e => lineAt e line.set line.way && isDirty e) }

/-- A clean line newly read into the L2 cache for a block, at a place and in a state that are free
(R201, R226; log entry 60). -/
def State.newL2Line (s : State) (b i : Nat) (transient : Bool) : CacheLine where
  block := b
  set := s.drawNat .cacheSet i % l2Sets s.cfg
  way := s.drawNat .cacheWay i % 8
  mesi := if s.drawBool .cacheShared i then .shared else .exclusive
  below := []
  transient := transient

/-- A line newly read into the L1 data cache for a block, at a set and way without relation to its
address, and in a state that is free (R201; log entry 60). -/
def State.newLine (s : State) (b : Nat) (transient : Bool) : CacheLine where
  block := b
  set := s.drawNat .cacheSet 0 % l1dSets s.cfg
  way := s.drawNat .cacheWay 0 % 4
  mesi := if s.drawBool .cacheShared 0 then .shared else .exclusive
  below := []
  transient := transient

/-- The descriptors of a cacheable walk are looked up in the L2 cache, and a block that no cache
holds may be allocated there (R154, R229). -/
def State.walkCaches (s : State) (i : Nat) : List Nat → Caches → Caches
  | [], c => c
  | b :: rest, c =>
    s.walkCaches (i + 1) rest
      (if s.drawBool .cacheAllocate i then c.insertL2 (s.newL2Line b i false) else c)

/-- An error answers an access to some of `n` bytes: the platform's bus, poison, or an uncorrected
error in a cache (R161, R487, R488). -/
def State.errorIn (s : State) (key n : Nat) : Bool :=
  s.cfg.busErrors.any (fun p => p.1 < key + n && key < p.2) ||
    (s.poison ++ s.cache.bad).any (fun b => key < b * 64 + 64 && b * 64 < key + n)

/-- Clean and invalidate of the line at a place of a cache: memory holds its data already, so the
line only leaves (R414). -/
def dropPlace (l : List CacheLine) (set way : Nat) : List CacheLine :=
  l.filter (fun e => !lineAt e set way)

/-- The data below the line of a block that is Modified in one of the caches (R416). -/
def Caches.dirtyBelow (c : Caches) (b : Nat) : Option (List Byte) :=
  match (c.l1d ++ c.l2).find? (fun e => e.block == b && e.mesi == .modified) with
  | some e => some e.below
  | none => none

/-- Bytes put over others from an offset up, within a line. -/
def patchBytes (l : List Byte) (offset : Nat) (bytes : List Byte) : List Byte :=
  (l.take offset ++ bytes ++ l.drop (offset + bytes.length)).take 64

/-- The caches after a store that goes to memory Non-cacheably: what lies below a line of the block
takes the bytes too, so that losing the line does not undo the store (R198 (b), R412, R626). -/
def Caches.through (c : Caches) (key : Nat) (bytes : List Byte) : Caches :=
  let put (e : CacheLine) : CacheLine :=
    if e.block == blockOf key && e.mesi == .modified then
      { e with below := patchBytes e.below (key % 64) bytes }
    else e
  { c with l1d := c.l1d.map put, l2 := c.l2.map put }

/-- The caches after a store to some bytes: the old words of them count as not cleaned until software
cleans the block, also when its line is displaced or was never allocated (R192). -/
def Caches.storedTo (c : Caches) (key n : Nat) : Caches :=
  let mark (w : OldWord) : OldWord :=
    if w.key < key + n && key < w.key + 4 then { w with unclean := true } else w
  { c with old := c.old.map mark }

/-- The caches without a block: no line of it, and nothing older of it to be seen (R168). -/
def Caches.without (c : Caches) (b : Nat) : Caches :=
  { c with
    l1d := dropBlock c.l1d b, l2 := dropBlock c.l2 b
    bad := c.bad.filter (· != b)
    older := c.older.filter (fun p => blockOf p.1 != b) }

/-- The caches after software has cleaned a block: a fetch still sees the old words only until the
instruction cache has been maintained (R192). -/
def Caches.cleanedBlock (c : Caches) (b : Nat) : Caches :=
  let mark (w : OldWord) : OldWord := if blockOf w.key = b then { w with unclean := false } else w
  { c with old := c.old.map mark }

/-- The caches with every line invalid (R181, R196, R228). The words below a line that another core
holds dirty stay to be seen by Non-cacheable fetches (R182). -/
def Caches.invalidated (c : Caches) : Caches :=
  { Caches.empty with
    old := (c.old.filter (·.below)).map fun w => { w with held := false, invalidated := false }
    lookups := c.lookups, evictions := c.evictions }

/-- All lines invalid, their dirty data lost: what a reset does (R601 (e)). -/
def discardDirty (m : List Host.Cell) : List CacheLine → List Host.Cell
  | [] => m
  | e :: rest =>
    discardDirty (if e.mesi = .modified then Memory.writeBytes m (e.block * 64) e.below else m) rest

end Sys2Proof.Machine
end

