-- ==== Sys2Proof/Machine/Mmu.lean ====
section
/-! DEFINITION. Address translation: TLB match and fill, the walk, permissions, memory types, and
the PBHA bits (R140 to R178). -/

namespace Sys2Proof

/-- What translation gives for one address: the output address and space, attributes, permissions,
whether the page is guarded, and the final PBHA bits (R159, R177). -/
structure Mapped where
  pa : BitVec 40
  ns : Bool
  attr : MemAttr
  perms : Perms
  level : BitVec 2
  s2Perms : Perms
  s2Level : BitVec 2
  ipa : BitVec 40
  dbm : Bool
  guarded : Bool
  pbha : BitVec 4
  deriving DecidableEq, Repr

/-- Normal Inner Write-Back Outer Write-Back memory, the only memory the core caches (R169). -/
def MemType.isWriteBack (t : MemType) : Bool := t == .normal .writeBack .writeBack

/-- A Device type (R170). -/
def MemType.isDevice (t : MemType) : Bool :=
  match t with
  | .device .. => true
  | .normal .. => false

/-- The regime has two input ranges, with an ASID (R149). -/
def Regime.hasAsid (r : Regime) : Bool :=
  match r with
  | .secureEl10 | .nsEl10 | .secureEl20 | .nsEl20 => true
  | .el3 | .secureEl2 | .nsEl2 => false

/-- The regime is an EL1&0 regime (R150). -/
def Regime.isEl10 (r : Regime) : Bool := r == .secureEl10 || r == .nsEl10

/-- The output address of an entry for an address in its block. -/
def TlbEntry.output (e : TlbEntry) (va : Word) : BitVec 40 :=
  ((e.pa >>> e.logSize) <<< e.logSize) + BitVec.ofNat 40 (field va 0 e.logSize)

/-- The intermediate physical address of an entry for an address in its block. -/
def TlbEntry.ipaOf (e : TlbEntry) (va : Word) : BitVec 40 :=
  ((e.ipa >>> e.logSize) <<< e.logSize) + BitVec.ofNat 40 (field va 0 e.logSize)

/-- The PBHA bits of an access, one by one: stage 2's where enabled, else stage 1's where enabled,
else 0 (R176, R177). -/
def finalPbha (s1 s1En s2 s2En : BitVec 4) : BitVec 4 := (s2 &&& s2En) ||| (s1 &&& s1En &&& ~~~s2En)

/-- What an entry maps an address to. -/
def TlbEntry.mapped (e : TlbEntry) (va : Word) : Mapped where
  pa := e.output va
  ns := e.ns
  attr := e.attr
  perms := e.perms
  level := e.level
  s2Perms := e.s2Perms
  s2Level := e.s2Level
  ipa := e.ipaOf va
  dbm := e.dbm
  guarded := e.guarded
  pbha := finalPbha e.s1Pbha e.s1En e.s2Pbha e.s2En

/-- The page sizes the L1 TLBs hold: 4KB, 16KB, 64KB and 2MB (R144). -/
def nativeLogSize (n : Nat) : Nat :=
  if 21 ≤ n then 21 else if 16 ≤ n then 16 else if 14 ≤ n then 14 else 12

/-- The piece of an entry's page that an L1 TLB takes for an address (R144). -/
def TlbEntry.split (e : TlbEntry) (va : Word) : TlbEntry :=
  let n := nativeLogSize e.logSize
  { e with
    logSize := n
    va := (va >>> n) <<< n
    pa := ((e.output va) >>> n) <<< n
    ipa := ((e.ipaOf va) >>> n) <<< n }

/-- Every access permitted. -/
def Perms.all : Perms := ⟨true, true, true, true, true, true⟩

/-- The permissions without those to write. -/
def Perms.readOnly (p : Perms) : Perms := { p with uw := false, pw := false }

/-- The entry of a Device page that may be executed at some level (R186). -/
def TlbEntry.executableDevice (e : TlbEntry) : Bool :=
  e.attr.type.isDevice && ((e.perms.ux && e.s2Perms.ux) || (e.perms.px && e.s2Perms.px))

/-- Two slots are one place of the L2 TLB. -/
def TlbSlot.samePlace (a b : TlbSlot) : Bool := a.ram == b.ram && a.set == b.set && a.way == b.way

/-- The entry of a page that only hardware could make writable, where hardware does not manage the
dirty state: it may not be written (R156). -/
def TlbEntry.unmanaged (e : TlbEntry) (stage2 : Bool) : TlbEntry :=
  { e with
    dbm := false
    perms := if stage2 then e.perms else e.perms.readOnly
    s2Perms := if stage2 then e.s2Perms.readOnly else e.s2Perms }

/-- A kind of access by number. -/
def AccessKind.number (k : AccessKind) : Nat :=
  match k with
  | .fetch => 0
  | .read => 1
  | .write => 2

/-- Two entries of a list map an address differently (R165). -/
def tlbConflict (l : List TlbEntry) (va : Word) : Bool :=
  match l with
  | [] => false
  | e :: rest => rest.any (fun e' => e'.mapped va != e.mapped va)

/-- The RAM of the L2 TLB that holds a page: small pages up to 64KB, and larger ones (R144, R247;
the border is log entry 56). -/
def TlbEntry.ram (e : TlbEntry) : TlbRam := if e.logSize ≤ 16 then .tcsp else .tcmp

/-- The ways of a RAM of the L2 TLB (R15, R247). -/
def TlbRam.ways (r : TlbRam) : Nat :=
  match r with
  | .tcsp => 6
  | .tcmp => 4

/-- The fault status code of a failed translation (R458). -/
def MmuFault.status (f : MmuFault) : BitVec 6 :=
  match f.kind with
  | .addressSize => 0b0000#4 ++ f.level
  | .translation => 0b0001#4 ++ f.level
  | .accessFlag => 0b0010#4 ++ f.level
  | .permission => 0b0011#4 ++ f.level
  | .externalOnWalk => 0b0101#4 ++ f.level
  | .unsupportedUpdate => 0b110001

end Sys2Proof

namespace Sys2Proof.Machine

/-- The outcome of a translation. -/
inductive Xlate where
  | ok (s : State) (m : Mapped)
  | fault (s : State) (f : MmuFault)
  | refused (r : Refusal)
  deriving DecidableEq, Repr

/-- TTBR0, TTBR1 and TCR of the regime in use (R57, R58). -/
def State.ttbr0 (s : State) : Word := s.ctl (atLevel s.regimeEl .ttbr0_el1 .ttbr0_el2 .ttbr0_el3)
def State.ttbr1 (s : State) : Word := s.ctl (atLevel s.regimeEl .ttbr1_el1 .ttbr1_el2 .ttbr0_el3)
def State.tcr (s : State) : Word := s.ctl (atLevel s.regimeEl .tcr_el1 .tcr_el2 .tcr_el3)

/-- The current ASID: bits [63:48] of TTBR1 when `TCR.A1`, else of TTBR0 (R58; places PRESUMED,
log entry 12). -/
def State.asid (s : State) : BitVec 16 :=
  (if bit s.tcr 22 then s.ttbr1 else s.ttbr0).extractLsb' 48 16

/-- The current VMID, in VTTBR_EL2 (R58). -/
def State.vmid (s : State) : BitVec 16 := (s.ctl .vttbr_el2).extractLsb' 48 16

/-- The match of R148: the compared address bits [48:N], the regime, and, for the regimes of R149
and R150, ASID or global, and VMID. -/
def State.tlbMatches (s : State) (va : Word) (e : TlbEntry) : Bool :=
  field va e.logSize (49 - e.logSize) == field e.va e.logSize (49 - e.logSize) &&
  e.regime == s.regime &&
  (!e.regime.hasAsid || e.global || e.asid == s.asid) &&
  (!(e.regime.isEl10 && s.el2Enabled) || e.vmid == s.vmid)

/-- The attributes of accesses while stage 1 is off. The memory type: data as the parameter says,
fetches Normal, cacheable only with `SCTLR_ELx.I` and then Write-Through (R142, R182). The rest,
which R142 leaves to the Arm ARM: shareable, untagged, with the allocation hint, not transient
(PRESUMED, log entry 11). -/
def State.offAttr (s : State) (k : AccessKind) : MemAttr where
  type := match k with
    | .fetch => if bit s.sctlr 12 then .normal .writeThrough .writeThrough
        else .normal .nonCacheable .nonCacheable
    | _ => s.cfg.mmuOffData
  allocate := true
  transient := false
  shareable := true
  tagged := false

/-- The identity mapping of an address while translation is off. -/
def State.offMapped (s : State) (va : Word) (k : AccessKind) : Mapped where
  pa := va.setWidth 40
  ns := !s.secure
  attr := s.offAttr k
  perms := .all
  level := 0
  s2Perms := .all
  s2Level := 0
  ipa := va.setWidth 40
  dbm := false
  guarded := false
  pbha := 0

/-- An L1 TLB, for fetches or for data. -/
def State.l1Tlb (s : State) (k : AccessKind) : List TlbEntry :=
  match k with
  | .fetch => s.tlb.l1i
  | _ => s.tlb.l1d

/-- A TLB without the entries that match an address, which a new entry replaces. -/
def State.without (s : State) (l : List TlbEntry) (va : Word) : List TlbEntry :=
  l.filter (fun e => !s.tlbMatches va e)

/-- An L1 TLB of `cap` entries with room for one more: a full one loses an entry, which is free (the
counts and the replacement are lost: log entry 56). -/
def State.roomIn (s : State) (k : AccessKind) (cap : Nat) (l : List TlbEntry) : List TlbEntry :=
  if l.length < cap then l else l.eraseIdx (s.drawNat .tlbPlace k.number % l.length)

/-- Puts an entry, split as needed, into an L1 TLB; a full one loses a free entry (DESIGN CHOICE,
log entry 56). -/
def State.fillL1 (s : State) (k : AccessKind) (va : Word) (e : TlbEntry) : State :=
  match k with
  | .fetch => { s with tlb := { s.tlb with
      l1i := e.split va :: s.roomIn k s.cfg.tlbSizes.l1i (s.without s.tlb.l1i va) } }
  | _ => { s with tlb := { s.tlb with
      l1d := e.split va :: s.roomIn k s.cfg.tlbSizes.l1d (s.without s.tlb.l1d va) } }

/-- The place a new entry takes in the L2 TLB: the set and the way are free (log entry 56). -/
def State.tlbSlot (s : State) (k : AccessKind) (e : TlbEntry) : TlbSlot where
  ram := e.ram
  set := s.drawNat .tlbPlace (8 + k.number) %
    (if e.ram = .tcsp then s.cfg.tlbSizes.tcspSets else s.cfg.tlbSizes.tcmpSets)
  way := s.drawNat .tlbPlace (16 + k.number) % e.ram.ways
  entry := e

/-- Puts an entry into the L2 TLB, in place of what matches the address and of what stood there. An
entry made while stage 1 is off is not kept: its memory type is that of one kind of access (R142).
Counts and replacement are lost (N12): DESIGN CHOICE, log entry 56. -/
def State.fillL2 (s : State) (k : AccessKind) (va : Word) (e : TlbEntry) : State :=
  if s.stage1On then
    { s with tlb := { s.tlb with
        l2 := s.tlbSlot k e :: s.tlb.l2.filter (fun t =>
          !s.tlbMatches va t.entry && !t.samePlace (s.tlbSlot k e)) } }
  else s

/-- Instruction words at a list of word keys, as they are before a write (R192). -/
def oldWords (m : List Host.Cell) (from_ : Nat) : Nat → List OldWord
  | 0 => []
  | n + 1 => ⟨from_, Memory.readWord m from_, true, false, false, false⟩ :: oldWords m (from_ + 4) n

/-- The words of `n * 4` bytes at a key, as an instruction cache holds them or as they lie below a
dirty line. -/
def wordsOf (held below : Bool) (key : Nat) (bytes : List Byte) : Nat → List OldWord
  | 0 => []
  | n + 1 => ⟨key, (ofBytes (bytes.take 4)).setWidth 32, held, false, below, false⟩ ::
      wordsOf held below (key + 4) (bytes.drop 4) n

/-- A write of bytes that leaves instruction fetch the old words to see (R192, R622), and nothing
older of the bytes to data accesses (R168). -/
def State.writeMem (s : State) (key : Nat) (bytes : List Byte) : State :=
  let first := key / 4 * 4
  let count := (key + bytes.length + 3 - first) / 4
  { s with
    mem := Memory.writeBytes s.mem key bytes
    cache := { s.cache with
      old := (oldWords s.mem first count).filter (fun w => !s.cache.old.contains w) ++ s.cache.old
      older := s.cache.older.filter (fun p => p.1 < key || key + bytes.length ≤ p.1) } }

/-- The tag of an address, bits [63:56], is ignored: `TBI1` [38] or `TBI0` [37] of the TCR for the
upper or the lower range, `TBI` [20] of a regime of one range; for a fetch not with `TBID1` [52],
`TBID0` [51] or `TBID` [29], under which an address of an instruction has no tag (R44; PRESUMED, log
entry 51). -/
def State.tagIgnored (s : State) (va : Word) (k : AccessKind) : Bool :=
  let at_ (upper lower single : Nat) : Bool :=
    bit s.tcr (if s.regime.hasAsid then (if bit va 55 then upper else lower) else single)
  at_ 38 37 20 && !(k == .fetch && at_ 52 51 29)

/-- An address without a tag that is ignored: bits [63:56] are bit 55. -/
def State.untagged (s : State) (va : Word) (k : AccessKind) : Word :=
  if s.tagIgnored va k then (va.setWidth 56).signExtend 64 else va

/-- The input of a walk (R143, R151). -/
def State.walkInput (s : State) (va : Word) (k : AccessKind) : WalkInput where
  regime := s.regime
  el := s.el
  kind := k
  stage1 := s.stage1On
  stage2 := s.stage2On
  offAttr := s.offAttr k
  va := va
  ttbr0 := s.ttbr0
  ttbr1 := s.ttbr1
  tcr := s.tcr
  sctlr := s.sctlr
  hcr := s.hcr
  vttbr := s.ctl .vttbr_el2
  vtcr := s.ctl .vtcr_el2
  atcr := s.ctl .atcr
  avtcr := s.ctl .avtcr
  mem := s.mem
  draw := s.draws

/-- The translation base register an address selects is disabled: `TCR.EPD1` for the upper range,
`EPD0` for the lower (R153; places PRESUMED, log entry 12). -/
def State.walkDisabled (s : State) (va : Word) : Bool :=
  s.regime.hasAsid && s.stage1On && (if bit va 55 then bit s.tcr 23 else bit s.tcr 7)

/-- The size of the input address space that `TxSZ` gives an address: `TCR.T1SZ` [21:16] for the
upper range, `T0SZ` [5:0] for the lower (R164; places PRESUMED, log entry 12). -/
def State.inputLogSize (s : State) (va : Word) : Nat :=
  64 - (if s.regime.hasAsid && bit va 55 then field s.tcr 16 6 else field s.tcr 0 6)

/-- log2 of the block a walk maps: a contiguous block where its Contiguous bit counts, which it
does not where the input address space does not include the whole block (R164). -/
def State.blockLogSize (s : State) (va : Word) (w : Walk) (honour : Bool) : Nat :=
  let c1 := if honour && w.contig1 ≤ s.inputLogSize va then w.contig1 else 0
  let c2 := if honour && w.contig2 ≤ 64 - field (s.ctl .vtcr_el2) 0 6 then w.contig2 else 0
  max (max 12 w.entry.logSize)
    (if s.stage1On && s.stage2On then min c1 c2 else if s.stage1On then c1 else c2)

/-- Hardware management of the Access flag and of the dirty state is on for a stage: `HA` and `HD`
of the TCR of the regime, or of `VTCR_EL2` for stage 2 (R156; places PRESUMED, log entry 12). -/
def State.managesAccess (s : State) (stage2 : Bool) : Bool :=
  if stage2 then bit (s.ctl .vtcr_el2) 21
  else bit s.tcr (if s.regime.hasAsid then 39 else 21)
def State.managesDirty (s : State) (stage2 : Bool) : Bool :=
  if stage2 then bit (s.ctl .vtcr_el2) 22
  else bit s.tcr (if s.regime.hasAsid then 40 else 22)

/-- The entry a walk puts into the TLBs: its context is the one in use, its block is the one of the
address, at least 4KB. With stage 2 off, stage 2 denies nothing and gives no PBHA bit; with stage 1
off, stage 1 neither denies nor guards anything and gives no PBHA bit (R142). -/
def State.walkedEntry (s : State) (va : Word) (w : Walk) (honour : Bool) : TlbEntry :=
  let n := s.blockLogSize va w honour
  let e := if w.entry.dbm && !s.managesDirty w.dbmStage2 then w.entry.unmanaged w.dbmStage2
    else w.entry
  { e with
    logSize := n
    va := (va >>> n) <<< n
    regime := s.regime
    asid := s.asid
    vmid := s.vmid
    perms := if s.stage1On then e.perms else .all
    level := if s.stage1On then e.level else 0
    guarded := s.stage1On && e.guarded
    s1En := if s.stage1On then e.s1En else 0
    s2Perms := if s.stage2On then e.s2Perms else .all
    s2En := if s.stage2On then e.s2En else 0 }

/-- The fault of a walk, of a stage that is on: with stage 2 off it is one of stage 1, with stage 1
off one of stage 2, and not one of a walk of stage 1 (R142). -/
def State.walkedFault (s : State) (f : MmuFault) : MmuFault :=
  if !s.stage2On then { f with stage2 := false, s1ptw := false, ipa := 0 }
  else if !s.stage1On then { f with stage2 := true, s1ptw := false }
  else f

/-- The PBHA values of the reads of a walk on the bus, whether it finds a page or not: `ATCR`
controls that of stage 1, `AVTCR` that of stage 2 (R60, R175). -/
def State.walkOnBus (s : State) : State :=
  { s with bus := { s.bus with
      walkPbha := if s.stage1On then Config.walkPbha1 (s.ctl .atcr) s.regime else s.bus.walkPbha
      walkPbha2 := if s.stage2On then Config.walkPbha2 (s.ctl .avtcr) s.regime
        else s.bus.walkPbha2 } }

/-- The state after the reads of a walk that found a page: its descriptors are in the L2 cache where
the walk is cacheable and the data cache is enabled (R154, R199). -/
def State.walkDone (s : State) (k : AccessKind) (w : Walk) : State :=
  { s.walkOnBus with
    cache := if w.cacheable && s.cachesOn then
      s.walkCaches (1000 * (k.number + 1)) w.reads s.cache else s.cache }

/-- A write to Write-Back memory goes into the line that holds the block, if a cache does (R200). -/
def Caches.dirtied (c : Caches) (m : List Host.Cell) (key : Nat) : Caches :=
  let old := blockBytes m (blockOf key)
  { c with
    l1d := dirtyBlock c.l1d (blockOf key) old
    l2 := dirtyBlock c.l2 (blockOf key) old }

/-- A descriptor is updated in memory that is Write-Back: in the line that holds it, if a cache does
(R157, R229), or past the caches where the data cache is disabled (R199). An update of the block that
the monitor holds leaves it: R376 says nothing of the walker's own stores (DESIGN CHOICE, log entry
33). -/
def State.updateDescriptor (s : State) (u : DescUpdate) : State :=
  let key := memKey u.pa u.ns
  let bytes := bytesOf 8 (u.value.setWidth 128)
  let t := { s with cache := if s.cachesOn then s.cache.dirtied s.mem key
      else s.cache.through key bytes }.writeMem key bytes
  { t with cache := t.cache.storedTo key 8 }

/-- The entry of a walk enters the TLBs. -/
def State.fill (s : State) (k : AccessKind) (va : Word) (e : TlbEntry) : Xlate :=
  .ok ((s.fillL2 k va e).fillL1 k va e) (e.mapped va)

/-- Stage 1 or stage 2 is on. -/
def State.stageOn (s : State) (stage2 : Bool) : Bool := if stage2 then s.stage2On else s.stage1On

/-- An update of a dirty state that hardware does not manage: it is not made, and the page may not
be written (R156). -/
def State.unmanagedUpdate (s : State) (u : DescUpdate) : Bool := u.dirty && !s.managesDirty u.stage2

/-- The updates that a walk asks of hardware: those of the stages that are on (R142), without the
dirty state that it does not manage (R156). -/
def State.updatesOf (s : State) (w : Walk) : List DescUpdate :=
  w.updates.filter fun u => s.stageOn u.stage2 && !s.unmanagedUpdate u

/-- The entry after the updates that are not made (R156). -/
def State.entryAfter (s : State) (w : Walk) (e : TlbEntry) : TlbEntry :=
  (w.updates.filter fun u => s.stageOn u.stage2 && s.unmanagedUpdate u).foldl
    (fun e u => e.unmanaged u.stage2) e

/-- The fault of an update: an Access flag fault where hardware does not manage the flag (R156), the
abort of R158 where the descriptor is not in Write-Back memory, reported of the stage of the
descriptor (log entry 51). -/
def State.updateFault (s : State) (u : DescUpdate) : Option MmuFault :=
  if !u.dirty && !s.managesAccess u.stage2 then
    some ⟨.accessFlag, u.level, u.stage2, false, u.ipa⟩
  else if u.tableWriteBack then none
  else some ⟨.unsupportedUpdate, 0, u.stage2, false, u.ipa⟩

/-- The external abort of a walk. Which descriptor met the error is not held: it is reported with
the level of the descriptor of the page, of the walk of stage 1 where that is on, with `S1PTW` 0
(DESIGN CHOICE, log entry 65). -/
def State.walkAbort (s : State) (w : Walk) : MmuFault :=
  s.walkedFault ⟨.externalOnWalk, w.entry.level, false, false, 0⟩

/-- The end of a walk that found a page: an external abort where the read of a descriptor met an
error (R162 (a), R488), before the fault of any update, since which descriptor comes first is not
held (DESIGN CHOICE, log entry 65); refused for a Device page that may be executed (R186); the fault
of the first update that has one; else the updates are written, those of both stages (R156), and the
TLBs filled. A walk that is made `ahead`, on no instruction's behalf or for a prefetch, writes nothing:
it ends without an entry where it asks for an update (R221). -/
def State.walked (s : State) (va : Word) (k : AccessKind) (w : Walk) (honour ahead : Bool) :
    Xlate :=
  let e := s.entryAfter w (s.walkedEntry va w honour)
  let s1 := s.walkDone k w
  let us := s.updatesOf w
  if w.reads.any (fun b => s.errorIn (b * 64) 64) then .fault s1 (s.walkAbort w)
  else if s.stage1On && e.executableDevice then .refused .executableDevice
  else match us.findSome? s.updateFault with
    | some f => .fault s1 (s.walkedFault f)
    | none =>
      if ahead && !us.isEmpty then .fault s1 ⟨.accessFlag, 0, false, false, 0⟩
      else (us.foldl State.updateDescriptor s1).fill k va e

/-- A translation table walk (R151 step 3): refused with big-endian tables (D1), a Translation
fault where the base register is disabled (R153; its level, and that an address which hits a TLB
entry does not take it, are log entry 51), else what the walk finds. A block whose contiguous size exceeds the input address space causes no Translation fault,
and its Contiguous bit is ignored (R164). -/
def State.walkFor (s : State) (va : Word) (k : AccessKind) (ahead : Bool) : Xlate :=
  if s.bigEndian then .refused .bigEndian
  else if s.walkDisabled va then .fault s ⟨.translation, 0, false, false, 0⟩
  else match Config.walk (s.walkInput va k) with
    | .fault f => .fault s.walkOnBus (s.walkedFault f)
    | .found w => s.walked va k w true ahead
    | .overContiguous w => s.walked va k w false ahead

/-- The entries of a TLB that match an address. -/
def State.matching (s : State) (l : List TlbEntry) (va : Word) : List TlbEntry :=
  l.filter (s.tlbMatches va)

/-- The matching entry of a TLB that serves this access: a clean page with a hardware dirty bit
does not serve a write, it is walked again (R156). -/
def State.serving (s : State) (l : List TlbEntry) (va : Word) (k : AccessKind) : Option TlbEntry :=
  (s.matching l va).find? (fun e => !(k == .write && e.dbm))

/-- The L2 TLB as a list of entries. -/
def State.l2Entries (s : State) : List TlbEntry := s.tlb.l2.map (·.entry)

/-- The translation of an address with translation on, in the order of R151: L1 TLB, L2 TLB,
walk. Entries that match with different translations are a conflict (R165). -/
def State.lookup (s : State) (va : Word) (k : AccessKind) (ahead : Bool) : Xlate :=
  if tlbConflict (s.matching (s.l1Tlb k) va) va then .refused .tlbConflict
  else match s.serving (s.l1Tlb k) va k with
    | some e => .ok s (e.mapped va)
    | none =>
      if tlbConflict (s.matching s.l2Entries va) va then .refused .tlbConflict
      else match s.serving s.l2Entries va k with
        | some e => .ok (s.fillL1 k va e) (e.mapped va)
        | none => s.walkFor va k ahead

/-- The address has bits [63:48] that are not all equal to bit 47 (R44). -/
def nonCanonical (va : Word) : Bool := va != (va.setWidth 48).signExtend 64

/-- Translation (R151, R153): the identity while both stages are off, with an Address size fault
above the 40-bit physical addresses; a fetch from an address that is not canonical, its tag set
aside where that is ignored, faults (R44). -/
def State.translateFor (s : State) (va : Word) (k : AccessKind) (ahead : Bool) : Xlate :=
  if s.stage1On || s.stage2On then
    if k == .fetch && nonCanonical (s.untagged va k) then
      .fault s ⟨if s.drawBool .nonCanonical 0 then .translation else .addressSize, 0, false,
        false, 0⟩
    else s.lookup va k ahead
  else if (s.untagged va k).toNat < 2 ^ 40 then .ok s (s.offMapped va k)
  else .fault s ⟨.addressSize, 0, false, false, 0⟩

/-- The translation of an instruction's access. -/
def State.translate (s : State) (va : Word) (k : AccessKind) : Xlate := s.translateFor va k false

/-- The translation of a prefetch or of a speculative access, which updates no descriptor (R221). -/
def State.translateAhead (s : State) (va : Word) (k : AccessKind) : Xlate :=
  s.translateFor va k true

/-- The permission check of R155, with `PSTATE.PAN` for privileged data accesses (R513; PAN
PRESUMED, log entry 12). -/
def State.permits (s : State) (p : Perms) (k : AccessKind) : Bool :=
  let denied := s.pstate.pan && k != .fetch && (p.ur || p.uw)
  match s.el == 0, k with
  | true, .fetch => p.ux
  | true, .read => p.ur
  | true, .write => p.uw
  | false, .fetch => p.px
  | false, .read => p.pr && !denied
  | false, .write => p.pw && !denied

/-- The stage 2 permission check, on which `PSTATE.PAN` has no bearing (R513). -/
def State.permits2 (s : State) (p : Perms) (k : AccessKind) : Bool :=
  match s.el == 0, k with
  | true, .fetch => p.ux
  | true, .read => p.ur
  | true, .write => p.uw
  | false, .fetch => p.px
  | false, .read => p.pr
  | false, .write => p.pw

/-- The permission check of a mapping, stage 1 before stage 2 (R155, R469). -/
def State.permissionFault (s : State) (m : Mapped) (k : AccessKind) : Option MmuFault :=
  if !s.permits m.perms k then some ⟨.permission, m.level, false, false, 0⟩
  else if !s.permits2 m.s2Perms k then some ⟨.permission, m.s2Level, true, false, m.ipa⟩
  else none

/-- The target of an abort: EL2 for stage 2, EL3 or EL2 for external aborts as `SCR_EL3.EA`,
`HCR_EL2.TEA` and `TGE` route them, else as any synchronous exception (R459, R466). -/
def State.abortTarget (s : State) (stage2 external : Bool) : EL :=
  if external then
    if bit s.scr 3 then 3
    else if s.el < 2 && s.el2Enabled && (bit s.hcr 37 || s.tge) then 2
    else s.syncTarget
  else if stage2 then 2 else s.syncTarget

/-- `HPFAR_EL2` of a stage 2 fault: `IPA[47:12] << 4` (R453). -/
def hpfarOf (ipa : BitVec 40) : Word := (ipa.setWidth 64 >>> 12) <<< 4

/-- Takes an Instruction Abort or a Data Abort: class by the level it comes from, FAR the faulting
address, HPFAR for a stage 2 fault, which an external abort is not (R453, R454, R460). -/
def State.takeAbort (s : State) (fetch stage2 external : Bool) (iss : BitVec 25) (va : Word)
    (ipa : BitVec 40) : State :=
  let t := s.abortTarget stage2 external
  let ec := (if fetch then 0x20 else 0x24) + (if t = s.el then 1 else 0)
  s.takeException ⟨t, .sync, s.pc, some (esrWord ec iss), .write va,
    if stage2 && !external then some (hpfarOf ipa) else none⟩

/-- The syndrome of an abort: status [5:0], WnR [6], S1PTW [7], CM [8], EA [9] (R453, R454). -/
def abortIss (status : BitVec 6) (wnr s1ptw cm ea : Bool) : BitVec 25 :=
  status.setWidth 25 ||| (flagAt wnr 6 ||| flagAt s1ptw 7 ||| flagAt cm 8 ||| flagAt ea 9).setWidth 25

/-- `SET` [12:11] of a synchronous external abort: recoverable 0b00, uncontainable 0b10 or
restartable 0b11, which is free (R459). -/
def State.errorSet (s : State) : BitVec 25 :=
  match s.drawNat .errorSet 0 % 3 with
  | 0 => 0
  | 1 => 0x1000
  | _ => 0x1800

/-- The syndrome of a synchronous external abort: `EA` supplied by the bus, `SET` (R459). -/
def State.externalIss (s : State) (status : BitVec 6) (wnr s1ptw cm : Bool) : BitVec 25 :=
  abortIss status wnr s1ptw cm (s.drawBool .externalAbortType 0) ||| s.errorSet

/-- Takes the abort of a failed translation (R453, R454). -/
def State.takeMmuFault (s : State) (fetch wnr cm : Bool) (va : Word) (f : MmuFault) : State :=
  if f.kind == .externalOnWalk then
    s.takeAbort fetch f.stage2 true (s.externalIss f.status wnr f.s1ptw cm) va f.ipa
  else s.takeAbort fetch f.stage2 false (abortIss f.status wnr f.s1ptw cm false) va f.ipa

/-! Page-Based Hardware Attributes and partitions on the bus (R173 to R178, R8) -/

/-- The PBHA values of the mappings of a physical address that the TLBs hold, or that an access went
through since (R178). -/
def State.aliasPbha (s : State) (m : Mapped) : List (BitVec 4) :=
  (((s.tlb.l1i ++ s.tlb.l1d ++ s.l2Entries).filter (fun e =>
    e.ns == m.ns && e.pa >>> e.logSize == m.pa >>> e.logSize)).map
    (fun e => finalPbha e.s1Pbha e.s1En e.s2Pbha e.s2En) ++
  (s.bus.uses.filter (fun u => u.keyPage == memKey m.pa m.ns / 4096)).map (·.pbha)).filter
    (· != m.pbha)

/-- The access refuses its aliases: PBHA values differ that are not data-neutral (R178, U3). -/
def State.aliasRefused (s : State) (m : Mapped) : Bool :=
  !s.cfg.pbhaNeutral && !(s.aliasPbha m).isEmpty

/-- The record of a mapping through which an access goes. -/
def pbhaUse (va : Word) (m : Mapped) : PbhaUse :=
  ⟨va.toNat / 4096, memKey m.pa m.ns / 4096, m.pbha⟩

/-- The MPAM partition of an access: `PMG_D` and `PARTID_D`, `PMG_I` and `PARTID_I` of the register
of the level, with `MPAM3_EL3.MPAMEN` [63] set (R8; places PRESUMED, log entry 12). -/
def State.mpamPartition (s : State) : BitVec 48 :=
  if bit (s.ctl .mpam3_el3) 63 then
    (s.ctl (if s.el = 0 then .mpam0_el1 else atLevel s.el .mpam1_el1 .mpam2_el2 .mpam3_el3)).setWidth
      48
  else 0

/-- What an access shows on the bus: the PBHA value, that of either mapping where aliases differ
(R173, R178), its partition, and the poison of its data (R480 (d)). -/
def State.showPbha (s : State) (va : Word) (m : Mapped) : State :=
  let use := pbhaUse va m
  { s with bus := { s.bus with
      pbha := s.choose .pbhaAlias 0 m.pbha (s.aliasPbha m)
      mpam := s.mpamPartition
      poison := s.poison.contains (blockOf (memKey m.pa m.ns))
      uses := if (s.stage1On || s.stage2On) && !s.bus.uses.contains use then use :: s.bus.uses
        else s.bus.uses } }

end Sys2Proof.Machine
end

