-- ==== Sys2Proof/Machine/CacheOps.lean ====
section
/-! DEFINITION. What loads and stores do to the L1 data cache, the L2 cache and the merging write
buffer, and what a load returns (R168, R195 to R231, R416). No operation here changes memory as
coherent observers see it, but the stores and `invalidateBlock`. -/

namespace Sys2Proof.Machine

/-- The key of the first byte of a mapping. -/
def mappedKey (m : Mapped) : Nat := memKey m.pa m.ns

/-- The memory of this access is cached by the core: Write-Back with the data cache enabled, all
else being Non-cacheable or Device (R169, R198, R199). -/
def State.isCached (s : State) (m : Mapped) : Bool := m.attr.type.isWriteBack && s.cachesOn

/-- The caches after a miss of a cached access: the line is allocated in the L1 data cache or in
the L2 cache (R204), where the allocation hint asks for it (R171). A transient write allocates in
the L2 cache, a transient read in either (R172). In write streaming mode a store writes out to the
L2 cache, or past it while the L2 streams too (R206). -/
def State.missCaches (s : State) (c : Caches) (b : Nat) (store : Bool) (attr : MemAttr) : Caches :=
  let mark (e : CacheLine) : CacheLine := if store then dirtied e (blockBytes s.mem b) else e
  let inL1 := c.insertL1 (mark (s.newLine b attr.transient))
    (s.drawNat .cacheSet 1 % l2Sets s.cfg) (s.drawNat .cacheWay 1 % 8)
  let inL2 := c.insertL2 (mark (s.newL2Line b 3 attr.transient))
  if store && s.mwb.l1 then (if s.mwb.l2 then c else inL2)
  else if attr.transient && store then inL2
  else if !attr.allocate && !attr.transient then c
  else if s.drawBool .cacheAllocate 0 then inL1 else inL2

/-- The caches after a cached access to a block: a hit in the L1 data cache stays there; a line of
the L2 cache may move to the L1, which is free, but not for a store in write streaming mode, which
writes out to the L2 instead of starting a linefill (R206); a miss may allocate. -/
def State.touchCaches (s : State) (b : Nat) (store : Bool) (attr : MemAttr) : Caches :=
  let c := { s.cache with lookups := s.cache.lookups + 1 }
  let old := blockBytes s.mem b
  let mark (e : CacheLine) : CacheLine := if store then dirtied e old else e
  if holdsBlock c.l1d b then
    if store then { c with l1d := dirtyBlock c.l1d b old } else c
  else match c.l2.find? (fun e => e.block == b) with
    | some e =>
      if !(store && s.mwb.l1) && s.drawBool .cacheAllocate 0 then
        c.insertL1 (mark { s.newLine b e.transient with mesi := e.mesi, below := e.below })
          (s.drawNat .cacheSet 1 % l2Sets s.cfg) (s.drawNat .cacheWay 1 % 8)
      else if store then { c with l2 := dirtyBlock c.l2 b old }
      else c
    | none => s.missCaches c b store attr

/-! The merging write buffer (R205 to R208) -/

/-- The bytes of a line that an access covers. -/
def lineMask (offset n : Nat) : BitVec 64 := (BitVec.ofNat 64 (2 ^ n - 1)) <<< offset

/-- The write buffer after a line has been written in full. One whose linefill was under way, and
that is not among those counted already, counts towards the thresholds. At that of the L1 the buffer
may switch to write streaming, and the count starts again; with the L1 streaming, at those of the L2
and the L3 these may be signalled (R205, R207). -/
def State.fullLine (s : State) (w : WriteBuffer) (b : Nat) (fills : Bool) : WriteBuffer :=
  let full := if fills && !w.full.contains b then b :: w.full else w.full
  let n := full.length
  let switch := !w.l1 && (s.cfg.streamThresholdL1 ≤ n && s.drawBool .writeStream 0)
  { line := none
    mask := 0
    fills := false
    full := if switch then [] else full
    l1 := w.l1 || switch
    l2 := w.l2 || (w.l1 && (s.cfg.streamThresholdL2 ≤ n && s.drawBool .writeStream 1))
    l3 := w.l3 || (w.l1 && (s.cfg.streamThresholdL3 ≤ n && s.drawBool .writeStream 2)) }

/-- The write buffer after a store of `n` bytes at a key: the bytes of one line are gathered; a
store to another line before the line is full ends write streaming and the count (R207 (a)). The
first store to a line that misses in the L1 data cache starts its linefill (R205). -/
def State.streamAfterStore (s : State) (key n : Nat) : WriteBuffer :=
  let b := blockOf key
  let bytes := lineMask (key % 64) n
  let same : Bool := s.mwb.line == some b
  let w := if s.mwb.line.isSome && !same then WriteBuffer.idle else s.mwb
  let mask := if same then w.mask ||| bytes else bytes
  let fills := if same then w.fills else !holdsBlock s.cache.l1d b
  if mask = BitVec.allOnes 64 then s.fullLine w b fills
  else { w with line := some b, mask := mask, fills := fills }

/-- The write buffer after a load of a block: one of the line of a stream that has not completed
ends the mode (R207 (b)); one of a line that is counted as written in full without being read starts
the count again (R208). -/
def State.streamAfterLoad (s : State) (b : Nat) : WriteBuffer :=
  if s.mwb.line = some b then .idle
  else if s.mwb.full.contains b then { s.mwb with full := [] }
  else s.mwb

/-! Loads and stores -/

/-- The caches and the write buffer after a load. -/
def State.loaded (s : State) (m : Mapped) : State :=
  let b := blockOf (mappedKey m)
  if s.isCached m then
    { s with cache := s.touchCaches b false m.attr, mwb := s.streamAfterLoad b }
  else s

/-- A store of bytes to memory at a mapping: memory, the caches, the write buffer, and what fetches
may still see, cached or not (R192, R198, R205). -/
def State.storeMemory (s : State) (m : Mapped) (bytes : List Byte) : State :=
  let key := mappedKey m
  let t := { s with
      cache := if s.isCached m then s.touchCaches (blockOf key) true m.attr
        else s.cache.through key bytes
      mwb := if s.isCached m then s.streamAfterStore key bytes.length else s.mwb }.writeMem key bytes
  { t with cache := t.cache.storedTo key bytes.length }

/-- The values other than memory's that a load may return: for Normal memory that is not shareable,
with the bytes another agent has written since as they were (R168; log entry 61). -/
def State.olderData (s : State) (m : Mapped) (n : Nat) : List Data :=
  let key := mappedKey m
  if m.attr.shareable || m.attr.type.isDevice ||
      !s.cache.older.any (fun p => key ≤ p.1 && p.1 < key + n) then []
  else [Memory.readLE (s.cache.older.foldl (fun c p => Memory.write c p.1 p.2) s.mem) key n]

/-- The bytes that a load from memory at a mapping returns. -/
def State.memoryData (s : State) (m : Mapped) (n : Nat) : Data :=
  s.choose .nonShareable 0 (Memory.readLE s.mem (mappedKey m) n) (s.olderData m n)

/-- Invalidation of a block to the point of coherency. Dirty data is written back or discarded,
which is free (R416, U15), unless it must be cleaned first. That is a clean by software, also where
the line has been displaced before or was never allocated (R192). -/
def State.invalidateBlock (s : State) (b : Nat) (cleanFirst : Bool) : State :=
  if cleanFirst then { s with cache := (s.cache.without b).cleanedBlock b }
  else match s.cache.dirtyBelow b with
    | some below =>
      let lost := s.writeMem (b * 64) below
      { s with
        mem := if s.drawBool .ivacDirty 0 then lost.mem else s.mem
        cache := if s.drawBool .ivacDirty 0 then lost.cache.without b else s.cache.without b }
    | none => { s with cache := s.cache.without b }

end Sys2Proof.Machine
end

