-- ==== Sys2Proof/Machine/UtilityBus.lean ====
section
/-! DEFINITION. The utility bus in the physical address space: which registers stand where on it,
and what a load or a store of the core itself does there (R50, R51, R76, R520 to R523, D14). -/

namespace Sys2Proof.Machine

/-- The AMU counters of the page at `0x<n>90000`, by offset in the page (R523). -/
def amuAt (offset : Nat) : Option SysReg :=
  match offset with
  | 0x000 => some .amevcntr00_el0
  | 0x008 => some .amevcntr01_el0
  | 0x010 => some .amevcntr02_el0
  | 0x018 => some .amevcntr03_el0
  | 0x100 => some .amevcntr10_el0
  | 0x108 => some .amevcntr11_el0
  | 0x110 => some .amevcntr12_el0
  | _ => none

/-- The numbers from 0 up without `out`: the one at place `i`. -/
def numberWithout (out i : Nat) : Nat := if i < out then i else i + 1

/-- The first address of a 64KB page of this core (R521, R522). -/
def utilityPageAt (c : Config) (page : Nat) : Nat :=
  c.utilityBusBase.toNat + c.coreId * 0x100000 + page * 0x10000

/-- The first address of the AMU page of this core (R522, R523). -/
def amuPageAt (c : Config) : Nat := utilityPageAt c 9

/-- The first address of the page of its MPMM registers, another one (R255, R521; log entry 68). -/
def mpmmPageAt (c : Config) : Nat := utilityPageAt c (numberWithout 9 c.mpmmPage.val)

/-- The MPMM registers of this core and where they stand (R50, R51). -/
def mpmmRegs (c : Config) : List (SysReg × Nat) :=
  [(.imp_cpuppmcr_el3, mpmmPageAt c + 8 * c.ppmcrPlace.val),
   (.imp_cpumpmmcr_el3, mpmmPageAt c + 8 * numberWithout c.ppmcrPlace.val c.mpmmcrPlace.val)]

/-- The AMU counter of this core at an absolute physical address (R523). -/
def amuRegAt (c : Config) (a : Nat) : Option SysReg :=
  if amuPageAt c ≤ a then amuAt (a - amuPageAt c) else none

/-- The register at an absolute physical address on the utility bus, with whether it may be
written: one of this core's MPMM registers, or an AMU counter (R520 to R523, D14). -/
def utilityRegAt (c : Config) (a : Nat) : Option (SysReg × Bool) :=
  (((mpmmRegs c).find? (·.2 == a)).map fun p => (p.1, true)).or
    ((amuRegAt c a).map fun r => (r, false))

/-- The register at an address, for this core. -/
def State.utilityReg (s : State) (a : Nat) : Option (SysReg × Bool) := utilityRegAt s.cfg a

/-- A mapping leads to the utility bus: to the megabyte of a core of the cluster, from
`UTILITY_BUS_BASE` up, where the integrator maps the bus there (R76, R255, R521 to R523). -/
def State.onUtilityBus (s : State) (m : Mapped) : Bool :=
  s.cfg.utilityBusMapped && s.cfg.utilityBusBase.toNat ≤ m.pa.toNat &&
    m.pa.toNat < s.cfg.utilityBusBase.toNat + s.cfg.numCores * 0x100000

/-- A byte of the pages of this core's registers, where what is not documented reads as zero
(R522). -/
def ownPage (c : Config) (a : Nat) : Bool :=
  (amuPageAt c ≤ a && a < amuPageAt c + 0x10000) || (mpmmPageAt c ≤ a && a < mpmmPageAt c + 0x10000)

/-- The register that a byte on the utility bus is of, with the number of the byte in it. -/
def utilityByteAt (c : Config) (a : Nat) : Option (Nat × SysReg × Bool) :=
  (List.range 8).findSome? fun k => (utilityRegAt c (a - k)).map fun p => (k, p)

/-- A byte read over the utility bus: of a register of this core, as it was or as it is until an MSR
of it is synchronised (R308), zero in the wrong Security state;
zero elsewhere in its pages; any value in the pages of the other cores and of the DSU-110. -/
def State.utilityByte (s : State) (ns : Bool) (a : Nat) : Byte :=
  (utilityByteAt s.cfg a).elim
    (if ownPage s.cfg a then 0 else (s.drawWord .utilityBus a).setWidth 8)
    fun p => if Config.utilityOpen p.2.2 ns then (s.ctl p.2.1 >>> (8 * p.1)).setWidth 8 else 0

/-- The value of a load of `n` bytes on the utility bus. -/
def State.utilityLoad (s : State) (m : Mapped) (n : Nat) : Data :=
  ofBytes ((List.range n).map fun i => s.utilityByte m.ns (m.pa.toNat + i))

/-- A store of `n` bytes on the utility bus: the MPMM registers it touches take a value, which is
free since their layout is lost (log entry 44); it is ignored elsewhere and in the wrong Security
state (R50, R51, R522). -/
def State.utilityStore (s : State) (m : Mapped) (n : Nat) : State :=
  (mpmmRegs s.cfg).foldl (fun t p =>
    if Config.utilityOpen true m.ns && m.pa.toNat < p.2 + 8 && p.2 < m.pa.toNat + n then
      t.putThrough p.1 none (s.drawWord .lostBits (10 + p.1.idx.val))
    else t) s

/-! Loads and stores at a mapping -/

/-- `MemRead` at a mapping (R21): of the utility bus (R76), else of memory. -/
def State.loadData (s : State) (m : Mapped) (n : Nat) : Data :=
  if s.onUtilityBus m then s.utilityLoad m n else s.memoryData m n

/-- A store of bytes at a mapping: on the utility bus (R76), else to memory. -/
def State.store (s : State) (m : Mapped) (bytes : List Byte) : State :=
  if s.onUtilityBus m then s.utilityStore m bytes.length else s.storeMemory m bytes

/-- `MemWrite` of `n` bytes at a mapping (R21). -/
def State.storeData (s : State) (m : Mapped) (n : Nat) (v : Data) : State :=
  s.store m (bytesOf n v)

end Sys2Proof.Machine
end

