-- ==== Sys2Proof/Machine/Access.lean ====
section
/-! DEFINITION. The data access of an instruction: its checks in the order of R469, translation,
permissions, watchpoints, external aborts, and the loads and stores themselves. -/

namespace Sys2Proof.Machine

/-- One data access as an instruction asks for it. -/
structure Req where
  va : Word
  size : Nat
  /-- the address must be a multiple of the size (R251) -/
  aligned : Bool
  /-- the base is SP, whose alignment is checked (R456) -/
  spBase : Bool
  /-- what the access does to memory, as WnR and watchpoints see the instruction -/
  loads : Bool
  stores : Bool
  /-- a cache maintenance instruction: `CM` in the syndrome (R454) -/
  maintenance : Bool
  deriving DecidableEq, Repr

/-- An access so far: translated and permitted; ended by an MMU fault, with the state that has
taken it; or stopped by another exception, the external abort of a walk among them, or a
refusal. -/
inductive Acc where
  | ok (s : State) (m : Mapped)
  | mmu (t : State)
  | stop (o : Out)

/-- SP is not 16-byte aligned and the check is on: `SA0` for EL0, `SA` above (R456; bit places
PRESUMED, log entry 12). Under `E2H` and `TGE` the `SA0` is that of `SCTLR_EL2`, the SCTLR of the
regime of EL0 (PRESUMED, log entry 37). -/
def State.spMisaligned (s : State) : Bool :=
  s.spCur &&& 0xF != 0 && (if s.el = 0 then bit s.sctlr 4 else bit s.sctlr 3)

/-- The SP alignment fault exception (R456). -/
def State.spAlignmentFault (s : State) : State := s.takeSync s.syncTarget 0x26 0

/-- The Alignment fault Data Abort of an access (R251, R454). -/
def State.alignmentFault (s : State) (r : Req) : State :=
  s.takeAbort false false false (abortIss 0b100001 r.stores false r.maintenance false) r.va 0

/-- `WnR` of an MMU fault of an access: 1 for a write; for an atomic, 1 but for a translation or
permission fault of its read half (R396, R454). -/
def faultWnr (r : Req) (k : AccessKind) (f : MmuFault) : Bool :=
  r.stores && !(r.loads && k == .read && (f.kind == .translation || f.kind == .permission))

/-- The checks before translation: byte order (R250, D1), SP alignment, alignment (R469). -/
def State.preCheck (s : State) (r : Req) : Option Out :=
  if s.bigEndian then some (.refused .bigEndian)
  else if r.spBase && s.spMisaligned then some (.next s.spAlignmentFault)
  else if r.aligned && r.va.toNat % r.size != 0 then some (.next (s.alignmentFault r))
  else none

/-- The control register of a breakpoint that matches addresses only: its type [23:20] is an address
match, linked or not (R551; place PRESUMED, log entry 27). -/
def addressOnly (w : Word) : Word := w &&& ~~~0xE00000#64

/-- The breakpoint and watchpoint register pairs, control then value (R66); BRP 0 to 3 match
addresses only (R15, R551). -/
def State.brps (s : State) : List (Word × Word) :=
  [(addressOnly (s.ctl .dbgbcr0_el1), s.ctl .dbgbvr0_el1),
   (addressOnly (s.ctl .dbgbcr1_el1), s.ctl .dbgbvr1_el1),
   (addressOnly (s.ctl .dbgbcr2_el1), s.ctl .dbgbvr2_el1),
   (addressOnly (s.ctl .dbgbcr3_el1), s.ctl .dbgbvr3_el1),
   (s.ctl .dbgbcr4_el1, s.ctl .dbgbvr4_el1), (s.ctl .dbgbcr5_el1, s.ctl .dbgbvr5_el1)]

def State.wrps (s : State) : List (Word × Word) :=
  [(s.ctl .dbgwcr0_el1, s.ctl .dbgwvr0_el1), (s.ctl .dbgwcr1_el1, s.ctl .dbgwvr1_el1),
   (s.ctl .dbgwcr2_el1, s.ctl .dbgwvr2_el1), (s.ctl .dbgwcr3_el1, s.ctl .dbgwvr3_el1)]

/-- The target of debug exceptions: EL1, or EL2 under `MDCR_EL2.TDE` or `TGE` (R554). -/
def State.debugTarget (s : State) : EL :=
  if s.el2Enabled && (bit (s.ctl .mdcr_el2) 8 || s.tge) then 2 else 1

/-- Debug exceptions are enabled: the OS Lock is clear, and the level is below the debug target,
or is it with `MDSCR_EL1.KDE` and `PSTATE.D` clear (R554, R556). -/
def State.debugEnabled (s : State) : Bool :=
  !s.osLock && (s.el < s.debugTarget ||
    (s.el == s.debugTarget && bit (s.ctl .mdscr_el1) 13 && !s.pstate.d))

/-- Breakpoint and watchpoint exceptions are enabled: `MDSCR_EL1.MDE` too (R554). -/
def State.monitorDebug (s : State) : Bool := s.debugEnabled && bit (s.ctl .mdscr_el1) 15

/-- The input of breakpoint and watchpoint matching. -/
def State.debugInput (s : State) (va : Word) (size : Nat) (load store : Bool) : DebugInput where
  brps := s.brps
  wps := s.wrps
  va := va
  size := size
  load := load
  store := store
  el := s.el
  ns := !s.secure
  contextId := s.ctl .contextidr_el1
  vttbr := s.ctl .vttbr_el2

/-- The first byte that the access touches: its size divides its address, but for the operations on
the whole block of an address. -/
def Req.start (r : Req) : Word := BitVec.ofNat 64 (r.va.toNat / r.size * r.size)

/-- A watched byte that the access touches, by its offset (R552). -/
def State.watchedByte (s : State) (r : Req) : Option Nat :=
  Config.watchpointMatch (s.debugInput r.start r.size r.loads r.stores)

/-- Halting is allowed: `EDSCR.HDE`, external debug authenticated, the OS Lock clear (R555, R556).
-/
def State.haltingAllowed (s : State) : Bool :=
  s.dbg.hde && s.cfg.debugAuthenticated && !s.osLock

/-- The core halts: it executes no more of the program until the debugger restarts it (R555). -/
def State.enterDebug (s : State) : State :=
  { s with dbg := { s.dbg with halted := true, request := false } }

/-- The watchpoint debug event of an access (R552, R553). -/
def State.watchpointHit (s : State) (r : Req) : Bool :=
  (s.monitorDebug || s.haltingAllowed) && (s.watchedByte r).isSome

/-- The Watchpoint exception: synchronous, the access not made, FAR a watched address that it
touches, `DFSC = 0b100010` (R552, R554). -/
def State.watchpointException (s : State) (r : Req) : State :=
  let t := s.debugTarget
  let far := r.start + BitVec.ofNat 64 ((s.watchedByte r).getD 0 % r.size)
  s.takeException ⟨t, .sync, s.pc, some (esrWord (if t = s.el then 0x35 else 0x34)
    (abortIss 0b100010 r.stores false r.maintenance false)), .write far, none⟩

/-- What a watchpoint debug event does: the core halts where halting is allowed, else takes the
exception (R552, R555). -/
def State.watchpointTaken (s : State) (r : Req) : State :=
  if s.haltingAllowed then s.enterDebug else s.watchpointException r

/-- Translation and permission check of one direction of an access (R155, R160). A watchpoint on its
bytes comes before the external abort of its walk, which is a synchronous external Data Abort, and
after the other faults (R469). -/
def State.xlate (s : State) (r : Req) (k : AccessKind) : Acc :=
  match s.translate r.va k with
  | .refused e => .stop (.refused e)
  | .fault s1 f =>
    let t := s1.takeMmuFault false (faultWnr r k f) r.maintenance r.va f
    if f.kind == .externalOnWalk then
      .stop (.next (if s1.watchpointHit r then s1.watchpointTaken r else t))
    else .mmu t
  | .ok s1 m =>
    match s1.permissionFault m k with
    | some f => .mmu (s1.takeMmuFault false (faultWnr r k f) r.maintenance r.va f)
    | none => .ok s1 m

/-! External aborts (R161 to R163, R459, R461) -/

/-- An error answers an access to `n` bytes at a mapping (R161, R487). -/
def State.busError (s : State) (m : Mapped) (n : Nat) : Bool := s.errorIn (mappedKey m) n

/-- The synchronous external abort of a load from Write-Back memory (R162, R459). -/
def State.syncExternalAbort (s : State) (r : Req) : State :=
  s.takeAbort false false true (s.externalIss 0b010000 r.stores false r.maintenance) r.va 0

/-- A syndrome of an SError: `IDS` 0, `AET` [12:10] one of the five values of R461, `EA` [9],
`DFSC = 0b010001`. -/
def legalSError (w : BitVec 25) : BitVec 25 :=
  let aet := w.extractLsb' 10 3
  0b010001 ||| (w &&& 0x200) |||
    ((if aet = 4 ∨ aet = 5 ∨ aet = 7 then 1 else aet).setWidth 25 <<< 10)

/-- The syndrome of an asynchronous external abort, its `AET` and `EA` free (R461). -/
def State.serrorIss (s : State) : BitVec 25 :=
  legalSError ((s.drawWord .serrorSyndrome 0).setWidth 25)

/-- A physical SError becomes pending. While one is pending already, that one stays, with its
syndrome (DESIGN CHOICE, log entry 62). -/
def State.pendWith (s : State) (iss : BitVec 25) : State :=
  { s with irq := { s.irq with serror := some (s.irq.serror.getD iss) } }

/-- A physical SError with a free syndrome becomes pending. -/
def State.pendSError (s : State) : State := s.pendWith s.serrorIss

/-- A physical SError of an uncontainable error becomes pending: `AET` is 0b000 (R461, R487). -/
def State.pendUncontainable (s : State) : State := s.pendWith (s.serrorIss &&& ~~~0x1C00#25)

/-- The asynchronous external abort of an access of `n` bytes that an error answers (R163). -/
def State.asyncError (s : State) (m : Mapped) (n : Nat) : State :=
  if s.busError m n then s.pendSError else s

/-! Allocation tags (R9, R458; log entry 58) -/

/-- The allocation tag of a granule. -/
def State.tagAt (s : State) (granule : Nat) : BitVec 4 := (Memory.read s.tags granule).setWidth 4

/-- Tag checks are made and raise synchronous faults: `PSTATE.TCO` clear, `SCTLR_ELx.ATA` [43] and
`TCF` [41:40] = 0b01, at EL0 `ATA0` [42] and `TCF0` [39:38] (places PRESUMED, log entry 12). -/
def State.tagChecks (s : State) : Bool :=
  !s.pstate.tco && (if s.el = 0 then bit s.sctlr 42 && field s.sctlr 38 2 == 1
    else bit s.sctlr 43 && field s.sctlr 40 2 == 1)

/-- A granule that the access touches has another tag than the address, bits [59:56]. -/
def State.tagFault (s : State) (r : Req) (m : Mapped) : Bool :=
  s.tagChecks && m.attr.tagged && !r.maintenance &&
    (List.range ((r.size + 15) / 16)).any fun i =>
      s.tagAt (mappedKey m / 16 + i) != r.va.extractLsb' 56 4

/-- The synchronous Tag Check fault: `DFSC = 0b010001` (R458). -/
def State.tagCheckFault (s : State) (r : Req) : State :=
  s.takeAbort false false false (abortIss 0b010001 r.stores false false false) r.va 0

/-- The checks after translation: PBHA aliases (R178), allocation tags, then the watchpoint (R469).
-/
def State.afterXlate (s : State) (r : Req) (m : Mapped) : Acc :=
  if s.aliasRefused m then .stop (.refused .pbhaAlias)
  else if s.tagFault r m then .stop (.next (s.tagCheckFault r))
  else if s.watchpointHit r then .stop (.next (s.watchpointTaken r))
  else .ok (s.showPbha r.va m) m

/-- A load or a store up to the point where its memory is known (R151 to R162). -/
def State.access (s : State) (r : Req) (k : AccessKind) : Acc :=
  match s.preCheck r with
  | some o => .stop o
  | none =>
    match s.xlate r k with
    | .ok s1 m => s1.afterXlate r m
    | a => a

/-- An atomic access: read permission, then write permission, then the watchpoint (R396). -/
def State.accessBoth (s : State) (r : Req) : Acc :=
  match s.preCheck r with
  | some o => .stop o
  | none =>
    match s.xlate r .read with
    | .ok s1 _ =>
      match s1.xlate r .write with
      | .ok s2 m => s2.afterXlate r m
      | a => a
    | a => a

/-- The instruction at the end of an access: an MMU fault has been taken, or another stop. -/
def Acc.finish (a : Acc) (f : State → Mapped → Out) : Out :=
  match a with
  | .ok s m => f s m
  | .mmu t => .next t
  | .stop o => o

end Sys2Proof.Machine
end

