-- ==== Sys2Proof/Machine/Operands.lean ====
section
/-! DEFINITION. Operand forms: access sizes, the addresses of exclusives, atomics and prefetches,
immediates (R270 to R274), and the arithmetic of the atomic operations (R401 to R409). -/

namespace Sys2Proof

/-- The bytes of an access size (R270, R271). -/
def Size.bytes (z : Size) : Nat :=
  match z with
  | .byte => 1
  | .half => 2
  | .word => 4
  | .dword => 8

/-- The new value an atomic operation stores for memory value `m` and operand `v`, both of width
`w` bits (R401 to R409). -/
def AtomicOp.result {w : Nat} (op : AtomicOp) (m v : BitVec w) : BitVec w :=
  match op with
  | .add => m + v
  | .clr => m &&& ~~~v
  | .eor => m ^^^ v
  | .set => m ||| v
  | .smax => if v.toInt < m.toInt then m else v
  | .smin => if v.toInt < m.toInt then v else m
  | .umax => if v.toNat < m.toNat then m else v
  | .umin => if v.toNat < m.toNat then v else m
  | .swp => v

/-- The operation on the low `n` bytes of two access values. -/
def AtomicOp.apply (op : AtomicOp) (n : Nat) (m v : Data) : Data :=
  (op.result (m.setWidth (8 * n)) (v.setWidth (8 * n))).setWidth 128

namespace Machine

/-- The access of a base register alone, naturally aligned (R251, R274 (g)). -/
def State.baseReq (s : State) (rn : Reg) (n : Nat) (loads stores : Bool) : Req where
  va := s.base rn
  size := n
  aligned := true
  spBase := rn == 31
  loads := loads
  stores := stores
  maintenance := false

/-- The data of a register pair: the first register at the lower address (R391, R400). -/
def State.pairData (s : State) (r1 r2 : Reg) (half : Nat) : Data :=
  s.xData r1 half ||| (s.xData r2 half <<< (8 * half))

/-- A register pair from a value: the first register from the lower address (R383, R400). -/
def State.setPair (s : State) (r1 r2 : Reg) (half : Nat) (v : Data) : State :=
  (s.setXData r1 half v).setXData r2 half (v >>> (8 * half))

/-- The second register of a `CASP` pair; 30 pairs with 31, which is XZR (R400). -/
def pairNext (r : Reg) : Reg := r + 1

/-- The byte offset of `BL`: `sext_64(imm26 : 0b00)` (R274 (a)). -/
def branchOffset (imm26 : BitVec 26) : Word := (imm26 ++ 0#2).signExtend 64

/-- The offset of a literal prefetch: `sext_64(imm19 : 0b00)` (R274 (d)). -/
def literalOffset (imm19 : BitVec 19) : Word := (imm19 ++ 0#2).signExtend 64

/-- The scaled unsigned offset of `PRFM`: `zext_64(imm12) << 3` (R274 (b)). -/
def scaledOffset (imm12 : BitVec 12) : Word := imm12.setWidth 64 <<< 3

/-- The unscaled offset of `PRFUM`: `sext_64(imm9)` (R274 (c)). -/
def unscaledOffset (imm9 : BitVec 9) : Word := imm9.signExtend 64

/-- The register offset of `PRFM`, extended by `option` and shifted by `3 * S`; `none` where
`option[1] = 0`, which is unallocated (R272). -/
def State.extendedOffset (s : State) (rm : Reg) (option : BitVec 3) (sh : BitVec 1) : Option Word :=
  let v := s.xr rm
  let e : Option Word := match option.toNat with
    | 2 => some ((v.setWidth 32).setWidth 64)
    | 3 => some v
    | 6 => some ((v.setWidth 32).signExtend 64)
    | 7 => some v
    | _ => none
  e.map (fun (x : Word) => x <<< (3 * sh.toNat))

end Machine

end Sys2Proof
end

