-- ==== Sys2Proof/Machine/Cas.lean ====
section
/-! DEFINITION. Atomic read-modify-write accesses (`MemAtomic`, R21, R396), and Compare and Swap
(R397 to R400). -/

namespace Sys2Proof.Machine

/-- An atomic to Device or Non-cacheable memory needs an interconnect that performs atomics; else it
aborts without effect, synchronously or by an SError (R215, U7). -/
def State.atomicGate (s : State) (r : Req) (m : Mapped) (go : Out) : Out :=
  if s.isCached m || s.cfg.interconnectAtomics then go
  else if s.drawBool .atomicAbort 0 then .next (s.syncExternalAbort r)
  else s.advanceWith State.pendSError

/-- The write buffer after the read of an atomic, which is a read of its line (R207, R208). -/
def State.lineRead (s : State) (m : Mapped) : State :=
  { s with mwb := if s.isCached m then s.streamAfterLoad (blockOf (mappedKey m)) else s.mwb }

/-- The read and the store of an atomic: an asynchronous error, memory, this core's own monitor
(R163, R376). -/
def State.atomicStore (s : State) (m : Mapped) (n : Nat) (v : Data) : State :=
  (((s.asyncError m n).lineRead m).storeData m n v).ownStore m.pa m.ns

/-- The effect of a compare and swap that completes: the new value stored where the compare holds,
the access recorded with its ordering, the old value returned by `put` (R397, R400). -/
def State.doCompareSwap (s : State) (m : Mapped) (n : Nat) (acq rel : Bool) (cmp new : Data)
    (put : State → Data → State) : State :=
  let old := s.loadData m n
  let s1 := if old == cmp then s.atomicStore m n new else (s.asyncError m n).loaded m
  put (s1.record (.update (mappedKey m) n acq rel)) old

/-- The state after both translations of a compare and swap: one that does not write leaves what the
write translation would have filled or updated as the read translation left it (R397). -/
def State.settled (s1 s2 : State) (writes : Bool) : State :=
  { s2 with
    mem := if writes then s2.mem else s1.mem
    tlb := if writes then s2.tlb else s1.tlb
    cache := if writes then s2.cache else s1.cache }

/-- Whether a compare and swap acts as a write: the compare holds, or, where it fails, by a free
choice (R397), which with translation off has no effect and is not made. -/
def State.casWrites (s1 : State) (m : Mapped) (n : Nat) (cmp : Data) : Bool :=
  s1.loadData m n == cmp || (s1.stage1On || s1.stage2On) && s1.drawBool .casFault 0

/-- Compare and swap of `n` bytes in all. The read permission is checked first; when the compare
fails, whether a write permission fault or a dirty-state update still happens is free (R397). -/
def State.compareSwap (s : State) (n : Nat) (acq rel : Bool) (rn : Reg) (cmp new : Data)
    (put : State → Data → State) : Out :=
  let r := s.baseReq rn n true true
  let go (t : State) (m : Mapped) : Out :=
    t.atomicGate r m (t.advanceWith fun u => u.doCompareSwap m n acq rel cmp new put)
  match s.preCheck r with
  | some o => o
  | none =>
    match s.xlate r .read with
    | .ok s1 m =>
      let writes := s1.casWrites m n cmp
      match s1.xlate r .write with
      | .ok s2 m2 =>
        ((s1.settled s2 writes).afterXlate r m2).finish go
      | a => if writes then a.finish go else (s1.afterXlate r m).finish go
    | a => a.finish go

/-- `CAS` (R397 to R399). -/
def casMeaning (sz : Size) (acq rel : Bool) (rs rt rn : Reg) (s : State) : Out :=
  s.compareSwap sz.bytes acq rel rn (s.xData rs sz.bytes) (s.xData rt sz.bytes)
    (fun t v => t.setXData rs sz.bytes v)

/-- `CASP` (R400): an odd first register is UNDEFINED. -/
def caspMeaning (wide acq rel : Bool) (rs rt rn : Reg) (s : State) : Out :=
  let half := if wide then 8 else 4
  if rs.getLsbD 0 || rt.getLsbD 0 then .next s.undefined
  else s.compareSwap (2 * half) acq rel rn (s.pairData rs (pairNext rs) half)
    (s.pairData rt (pairNext rt) half) (fun t v => t.setPair rs (pairNext rs) half v)

/-! The instructions -/

/-- CAS (W), R397. -/
def execCasW (rs rt rn : Reg) (s : State) : Out :=
  casMeaning .word false false rs rt rn s

/-- CASL (W), R397. -/
def execCaslW (rs rt rn : Reg) (s : State) : Out :=
  casMeaning .word false true rs rt rn s

/-- CASA (W), R397. -/
def execCasaW (rs rt rn : Reg) (s : State) : Out :=
  casMeaning .word true false rs rt rn s

/-- CASAL (W), R397. -/
def execCasalW (rs rt rn : Reg) (s : State) : Out :=
  casMeaning .word true true rs rt rn s

/-- CAS (X), R397. -/
def execCasX (rs rt rn : Reg) (s : State) : Out :=
  casMeaning .dword false false rs rt rn s

/-- CASL (X), R397. -/
def execCaslX (rs rt rn : Reg) (s : State) : Out :=
  casMeaning .dword false true rs rt rn s

/-- CASA (X), R397. -/
def execCasaX (rs rt rn : Reg) (s : State) : Out :=
  casMeaning .dword true false rs rt rn s

/-- CASAL (X), R397. -/
def execCasalX (rs rt rn : Reg) (s : State) : Out :=
  casMeaning .dword true true rs rt rn s

/-- CASB, R398. -/
def execCasb (rs rt rn : Reg) (s : State) : Out :=
  casMeaning .byte false false rs rt rn s

/-- CASLB, R398. -/
def execCaslb (rs rt rn : Reg) (s : State) : Out :=
  casMeaning .byte false true rs rt rn s

/-- CASAB, R398. -/
def execCasab (rs rt rn : Reg) (s : State) : Out :=
  casMeaning .byte true false rs rt rn s

/-- CASALB, R398. -/
def execCasalb (rs rt rn : Reg) (s : State) : Out :=
  casMeaning .byte true true rs rt rn s

/-- CASH, R399. -/
def execCash (rs rt rn : Reg) (s : State) : Out :=
  casMeaning .half false false rs rt rn s

/-- CASLH, R399. -/
def execCaslh (rs rt rn : Reg) (s : State) : Out :=
  casMeaning .half false true rs rt rn s

/-- CASAH, R399. -/
def execCasah (rs rt rn : Reg) (s : State) : Out :=
  casMeaning .half true false rs rt rn s

/-- CASALH, R399. -/
def execCasalh (rs rt rn : Reg) (s : State) : Out :=
  casMeaning .half true true rs rt rn s

/-- CASP (W), R400. -/
def execCaspW (rs rt rn : Reg) (s : State) : Out :=
  caspMeaning false false false rs rt rn s

/-- CASPL (W), R400. -/
def execCasplW (rs rt rn : Reg) (s : State) : Out :=
  caspMeaning false false true rs rt rn s

/-- CASPA (W), R400. -/
def execCaspaW (rs rt rn : Reg) (s : State) : Out :=
  caspMeaning false true false rs rt rn s

/-- CASPAL (W), R400. -/
def execCaspalW (rs rt rn : Reg) (s : State) : Out :=
  caspMeaning false true true rs rt rn s

/-- CASP (X), R400. -/
def execCaspX (rs rt rn : Reg) (s : State) : Out :=
  caspMeaning true false false rs rt rn s

/-- CASPL (X), R400. -/
def execCasplX (rs rt rn : Reg) (s : State) : Out :=
  caspMeaning true false true rs rt rn s

/-- CASPA (X), R400. -/
def execCaspaX (rs rt rn : Reg) (s : State) : Out :=
  caspMeaning true true false rs rt rn s

/-- CASPAL (X), R400. -/
def execCaspalX (rs rt rn : Reg) (s : State) : Out :=
  caspMeaning true true true rs rt rn s

end Sys2Proof.Machine
end

