-- ==== Sys2Proof/Machine/Atomic.lean ====
section
/-! DEFINITION. The atomic memory operations LD<op> and SWP (R401 to R409). -/

namespace Sys2Proof.Machine

/-- The effect of an atomic operation that completes: the new value stored, the access recorded with
its ordering, the old value returned; acquire does not apply with register 31 (R396, R401). -/
def State.doAtomic (s : State) (m : Mapped) (op : AtomicOp) (n : Nat) (acq rel : Bool) (v : Data)
    (rt : Reg) : State :=
  let old := s.loadData m n
  ((s.atomicStore m n (op.apply n old v)).record
    (.update (mappedKey m) n (acq && rt != 31) rel)).setXData rt n old

/-- `AtomicLd(op)` (R401 to R410). -/
def atomicUpdate (op : AtomicOp) (sz : Size) (acq rel : Bool) (rs rt rn : Reg) (s : State) : Out :=
  let r := s.baseReq rn sz.bytes true true
  (s.accessBoth r).finish fun s1 m =>
    s1.atomicGate r m
      (s1.advanceWith fun t => t.doAtomic m op sz.bytes acq rel (s.xData rs sz.bytes) rt)

/-! The instructions -/

/-- LDADDB, R401. -/
def execLdaddb (rs rt rn : Reg) (s : State) : Out :=
  atomicUpdate .add .byte false false rs rt rn s

/-- LDADDH, R401. -/
def execLdaddh (rs rt rn : Reg) (s : State) : Out :=
  atomicUpdate .add .half false false rs rt rn s

/-- LDADD (W), R401. -/
def execLdaddW (rs rt rn : Reg) (s : State) : Out :=
  atomicUpdate .add .word false false rs rt rn s

/-- LDADD (X), R401. -/
def execLdaddX (rs rt rn : Reg) (s : State) : Out :=
  atomicUpdate .add .dword false false rs rt rn s

/-- LDADDLB, R401. -/
def execLdaddlb (rs rt rn : Reg) (s : State) : Out :=
  atomicUpdate .add .byte false true rs rt rn s

/-- LDADDLH, R401. -/
def execLdaddlh (rs rt rn : Reg) (s : State) : Out :=
  atomicUpdate .add .half false true rs rt rn s

/-- LDADDL (W), R401. -/
def execLdaddlW (rs rt rn : Reg) (s : State) : Out :=
  atomicUpdate .add .word false true rs rt rn s

/-- LDADDL (X), R401. -/
def execLdaddlX (rs rt rn : Reg) (s : State) : Out :=
  atomicUpdate .add .dword false true rs rt rn s

/-- LDADDAB, R401. -/
def execLdaddab (rs rt rn : Reg) (s : State) : Out :=
  atomicUpdate .add .byte true false rs rt rn s

/-- LDADDAH, R401. -/
def execLdaddah (rs rt rn : Reg) (s : State) : Out :=
  atomicUpdate .add .half true false rs rt rn s

/-- LDADDA (W), R401. -/
def execLdaddaW (rs rt rn : Reg) (s : State) : Out :=
  atomicUpdate .add .word true false rs rt rn s

/-- LDADDA (X), R401. -/
def execLdaddaX (rs rt rn : Reg) (s : State) : Out :=
  atomicUpdate .add .dword true false rs rt rn s

/-- LDADDALB, R401. -/
def execLdaddalb (rs rt rn : Reg) (s : State) : Out :=
  atomicUpdate .add .byte true true rs rt rn s

/-- LDADDALH, R401. -/
def execLdaddalh (rs rt rn : Reg) (s : State) : Out :=
  atomicUpdate .add .half true true rs rt rn s

/-- LDADDAL (W), R401. -/
def execLdaddalW (rs rt rn : Reg) (s : State) : Out :=
  atomicUpdate .add .word true true rs rt rn s

/-- LDADDAL (X), R401. -/
def execLdaddalX (rs rt rn : Reg) (s : State) : Out :=
  atomicUpdate .add .dword true true rs rt rn s

/-- LDCLRB, R402. -/
def execLdclrb (rs rt rn : Reg) (s : State) : Out :=
  atomicUpdate .clr .byte false false rs rt rn s

/-- LDCLRH, R402. -/
def execLdclrh (rs rt rn : Reg) (s : State) : Out :=
  atomicUpdate .clr .half false false rs rt rn s

/-- LDCLR (W), R402. -/
def execLdclrW (rs rt rn : Reg) (s : State) : Out :=
  atomicUpdate .clr .word false false rs rt rn s

/-- LDCLR (X), R402. -/
def execLdclrX (rs rt rn : Reg) (s : State) : Out :=
  atomicUpdate .clr .dword false false rs rt rn s

/-- LDCLRLB, R402. -/
def execLdclrlb (rs rt rn : Reg) (s : State) : Out :=
  atomicUpdate .clr .byte false true rs rt rn s

/-- LDCLRLH, R402. -/
def execLdclrlh (rs rt rn : Reg) (s : State) : Out :=
  atomicUpdate .clr .half false true rs rt rn s

/-- LDCLRL (W), R402. -/
def execLdclrlW (rs rt rn : Reg) (s : State) : Out :=
  atomicUpdate .clr .word false true rs rt rn s

/-- LDCLRL (X), R402. -/
def execLdclrlX (rs rt rn : Reg) (s : State) : Out :=
  atomicUpdate .clr .dword false true rs rt rn s

/-- LDCLRAB, R402. -/
def execLdclrab (rs rt rn : Reg) (s : State) : Out :=
  atomicUpdate .clr .byte true false rs rt rn s

/-- LDCLRAH, R402. -/
def execLdclrah (rs rt rn : Reg) (s : State) : Out :=
  atomicUpdate .clr .half true false rs rt rn s

/-- LDCLRA (W), R402. -/
def execLdclraW (rs rt rn : Reg) (s : State) : Out :=
  atomicUpdate .clr .word true false rs rt rn s

/-- LDCLRA (X), R402. -/
def execLdclraX (rs rt rn : Reg) (s : State) : Out :=
  atomicUpdate .clr .dword true false rs rt rn s

/-- LDCLRALB, R402. -/
def execLdclralb (rs rt rn : Reg) (s : State) : Out :=
  atomicUpdate .clr .byte true true rs rt rn s

/-- LDCLRALH, R402. -/
def execLdclralh (rs rt rn : Reg) (s : State) : Out :=
  atomicUpdate .clr .half true true rs rt rn s

/-- LDCLRAL (W), R402. -/
def execLdclralW (rs rt rn : Reg) (s : State) : Out :=
  atomicUpdate .clr .word true true rs rt rn s

/-- LDCLRAL (X), R402. -/
def execLdclralX (rs rt rn : Reg) (s : State) : Out :=
  atomicUpdate .clr .dword true true rs rt rn s

/-- LDEORB, R403. -/
def execLdeorb (rs rt rn : Reg) (s : State) : Out :=
  atomicUpdate .eor .byte false false rs rt rn s

/-- LDEORH, R403. -/
def execLdeorh (rs rt rn : Reg) (s : State) : Out :=
  atomicUpdate .eor .half false false rs rt rn s

/-- LDEOR (W), R403. -/
def execLdeorW (rs rt rn : Reg) (s : State) : Out :=
  atomicUpdate .eor .word false false rs rt rn s

/-- LDEOR (X), R403. -/
def execLdeorX (rs rt rn : Reg) (s : State) : Out :=
  atomicUpdate .eor .dword false false rs rt rn s

/-- LDEORLB, R403. -/
def execLdeorlb (rs rt rn : Reg) (s : State) : Out :=
  atomicUpdate .eor .byte false true rs rt rn s

/-- LDEORLH, R403. -/
def execLdeorlh (rs rt rn : Reg) (s : State) : Out :=
  atomicUpdate .eor .half false true rs rt rn s

/-- LDEORL (W), R403. -/
def execLdeorlW (rs rt rn : Reg) (s : State) : Out :=
  atomicUpdate .eor .word false true rs rt rn s

/-- LDEORL (X), R403. -/
def execLdeorlX (rs rt rn : Reg) (s : State) : Out :=
  atomicUpdate .eor .dword false true rs rt rn s

/-- LDEORAB, R403. -/
def execLdeorab (rs rt rn : Reg) (s : State) : Out :=
  atomicUpdate .eor .byte true false rs rt rn s

/-- LDEORAH, R403. -/
def execLdeorah (rs rt rn : Reg) (s : State) : Out :=
  atomicUpdate .eor .half true false rs rt rn s

/-- LDEORA (W), R403. -/
def execLdeoraW (rs rt rn : Reg) (s : State) : Out :=
  atomicUpdate .eor .word true false rs rt rn s

/-- LDEORA (X), R403. -/
def execLdeoraX (rs rt rn : Reg) (s : State) : Out :=
  atomicUpdate .eor .dword true false rs rt rn s

/-- LDEORALB, R403. -/
def execLdeoralb (rs rt rn : Reg) (s : State) : Out :=
  atomicUpdate .eor .byte true true rs rt rn s

/-- LDEORALH, R403. -/
def execLdeoralh (rs rt rn : Reg) (s : State) : Out :=
  atomicUpdate .eor .half true true rs rt rn s

/-- LDEORAL (W), R403. -/
def execLdeoralW (rs rt rn : Reg) (s : State) : Out :=
  atomicUpdate .eor .word true true rs rt rn s

/-- LDEORAL (X), R403. -/
def execLdeoralX (rs rt rn : Reg) (s : State) : Out :=
  atomicUpdate .eor .dword true true rs rt rn s

/-- LDSETB, R404. -/
def execLdsetb (rs rt rn : Reg) (s : State) : Out :=
  atomicUpdate .set .byte false false rs rt rn s

/-- LDSETH, R404. -/
def execLdseth (rs rt rn : Reg) (s : State) : Out :=
  atomicUpdate .set .half false false rs rt rn s

/-- LDSET (W), R404. -/
def execLdsetW (rs rt rn : Reg) (s : State) : Out :=
  atomicUpdate .set .word false false rs rt rn s

/-- LDSET (X), R404. -/
def execLdsetX (rs rt rn : Reg) (s : State) : Out :=
  atomicUpdate .set .dword false false rs rt rn s

/-- LDSETLB, R404. -/
def execLdsetlb (rs rt rn : Reg) (s : State) : Out :=
  atomicUpdate .set .byte false true rs rt rn s

/-- LDSETLH, R404. -/
def execLdsetlh (rs rt rn : Reg) (s : State) : Out :=
  atomicUpdate .set .half false true rs rt rn s

/-- LDSETL (W), R404. -/
def execLdsetlW (rs rt rn : Reg) (s : State) : Out :=
  atomicUpdate .set .word false true rs rt rn s

/-- LDSETL (X), R404. -/
def execLdsetlX (rs rt rn : Reg) (s : State) : Out :=
  atomicUpdate .set .dword false true rs rt rn s

/-- LDSETAB, R404. -/
def execLdsetab (rs rt rn : Reg) (s : State) : Out :=
  atomicUpdate .set .byte true false rs rt rn s

/-- LDSETAH, R404. -/
def execLdsetah (rs rt rn : Reg) (s : State) : Out :=
  atomicUpdate .set .half true false rs rt rn s

/-- LDSETA (W), R404. -/
def execLdsetaW (rs rt rn : Reg) (s : State) : Out :=
  atomicUpdate .set .word true false rs rt rn s

/-- LDSETA (X), R404. -/
def execLdsetaX (rs rt rn : Reg) (s : State) : Out :=
  atomicUpdate .set .dword true false rs rt rn s

/-- LDSETALB, R404. -/
def execLdsetalb (rs rt rn : Reg) (s : State) : Out :=
  atomicUpdate .set .byte true true rs rt rn s

/-- LDSETALH, R404. -/
def execLdsetalh (rs rt rn : Reg) (s : State) : Out :=
  atomicUpdate .set .half true true rs rt rn s

/-- LDSETAL (W), R404. -/
def execLdsetalW (rs rt rn : Reg) (s : State) : Out :=
  atomicUpdate .set .word true true rs rt rn s

/-- LDSETAL (X), R404. -/
def execLdsetalX (rs rt rn : Reg) (s : State) : Out :=
  atomicUpdate .set .dword true true rs rt rn s

/-- LDSMAXB, R405. -/
def execLdsmaxb (rs rt rn : Reg) (s : State) : Out :=
  atomicUpdate .smax .byte false false rs rt rn s

/-- LDSMAXH, R405. -/
def execLdsmaxh (rs rt rn : Reg) (s : State) : Out :=
  atomicUpdate .smax .half false false rs rt rn s

/-- LDSMAX (W), R405. -/
def execLdsmaxW (rs rt rn : Reg) (s : State) : Out :=
  atomicUpdate .smax .word false false rs rt rn s

/-- LDSMAX (X), R405. -/
def execLdsmaxX (rs rt rn : Reg) (s : State) : Out :=
  atomicUpdate .smax .dword false false rs rt rn s

/-- LDSMAXLB, R405. -/
def execLdsmaxlb (rs rt rn : Reg) (s : State) : Out :=
  atomicUpdate .smax .byte false true rs rt rn s

/-- LDSMAXLH, R405. -/
def execLdsmaxlh (rs rt rn : Reg) (s : State) : Out :=
  atomicUpdate .smax .half false true rs rt rn s

/-- LDSMAXL (W), R405. -/
def execLdsmaxlW (rs rt rn : Reg) (s : State) : Out :=
  atomicUpdate .smax .word false true rs rt rn s

/-- LDSMAXL (X), R405. -/
def execLdsmaxlX (rs rt rn : Reg) (s : State) : Out :=
  atomicUpdate .smax .dword false true rs rt rn s

/-- LDSMAXAB, R405. -/
def execLdsmaxab (rs rt rn : Reg) (s : State) : Out :=
  atomicUpdate .smax .byte true false rs rt rn s

/-- LDSMAXAH, R405. -/
def execLdsmaxah (rs rt rn : Reg) (s : State) : Out :=
  atomicUpdate .smax .half true false rs rt rn s

/-- LDSMAXA (W), R405. -/
def execLdsmaxaW (rs rt rn : Reg) (s : State) : Out :=
  atomicUpdate .smax .word true false rs rt rn s

/-- LDSMAXA (X), R405. -/
def execLdsmaxaX (rs rt rn : Reg) (s : State) : Out :=
  atomicUpdate .smax .dword true false rs rt rn s

/-- LDSMAXALB, R405. -/
def execLdsmaxalb (rs rt rn : Reg) (s : State) : Out :=
  atomicUpdate .smax .byte true true rs rt rn s

/-- LDSMAXALH, R405. -/
def execLdsmaxalh (rs rt rn : Reg) (s : State) : Out :=
  atomicUpdate .smax .half true true rs rt rn s

/-- LDSMAXAL (W), R405. -/
def execLdsmaxalW (rs rt rn : Reg) (s : State) : Out :=
  atomicUpdate .smax .word true true rs rt rn s

/-- LDSMAXAL (X), R405. -/
def execLdsmaxalX (rs rt rn : Reg) (s : State) : Out :=
  atomicUpdate .smax .dword true true rs rt rn s

/-- LDSMINB, R406. -/
def execLdsminb (rs rt rn : Reg) (s : State) : Out :=
  atomicUpdate .smin .byte false false rs rt rn s

/-- LDSMINH, R406. -/
def execLdsminh (rs rt rn : Reg) (s : State) : Out :=
  atomicUpdate .smin .half false false rs rt rn s

/-- LDSMIN (W), R406. -/
def execLdsminW (rs rt rn : Reg) (s : State) : Out :=
  atomicUpdate .smin .word false false rs rt rn s

/-- LDSMIN (X), R406. -/
def execLdsminX (rs rt rn : Reg) (s : State) : Out :=
  atomicUpdate .smin .dword false false rs rt rn s

/-- LDSMINLB, R406. -/
def execLdsminlb (rs rt rn : Reg) (s : State) : Out :=
  atomicUpdate .smin .byte false true rs rt rn s

/-- LDSMINLH, R406. -/
def execLdsminlh (rs rt rn : Reg) (s : State) : Out :=
  atomicUpdate .smin .half false true rs rt rn s

/-- LDSMINL (W), R406. -/
def execLdsminlW (rs rt rn : Reg) (s : State) : Out :=
  atomicUpdate .smin .word false true rs rt rn s

/-- LDSMINL (X), R406. -/
def execLdsminlX (rs rt rn : Reg) (s : State) : Out :=
  atomicUpdate .smin .dword false true rs rt rn s

/-- LDSMINAB, R406. -/
def execLdsminab (rs rt rn : Reg) (s : State) : Out :=
  atomicUpdate .smin .byte true false rs rt rn s

/-- LDSMINAH, R406. -/
def execLdsminah (rs rt rn : Reg) (s : State) : Out :=
  atomicUpdate .smin .half true false rs rt rn s

/-- LDSMINA (W), R406. -/
def execLdsminaW (rs rt rn : Reg) (s : State) : Out :=
  atomicUpdate .smin .word true false rs rt rn s

/-- LDSMINA (X), R406. -/
def execLdsminaX (rs rt rn : Reg) (s : State) : Out :=
  atomicUpdate .smin .dword true false rs rt rn s

/-- LDSMINALB, R406. -/
def execLdsminalb (rs rt rn : Reg) (s : State) : Out :=
  atomicUpdate .smin .byte true true rs rt rn s

/-- LDSMINALH, R406. -/
def execLdsminalh (rs rt rn : Reg) (s : State) : Out :=
  atomicUpdate .smin .half true true rs rt rn s

/-- LDSMINAL (W), R406. -/
def execLdsminalW (rs rt rn : Reg) (s : State) : Out :=
  atomicUpdate .smin .word true true rs rt rn s

/-- LDSMINAL (X), R406. -/
def execLdsminalX (rs rt rn : Reg) (s : State) : Out :=
  atomicUpdate .smin .dword true true rs rt rn s

/-- LDUMAXB, R407. -/
def execLdumaxb (rs rt rn : Reg) (s : State) : Out :=
  atomicUpdate .umax .byte false false rs rt rn s

/-- LDUMAXH, R407. -/
def execLdumaxh (rs rt rn : Reg) (s : State) : Out :=
  atomicUpdate .umax .half false false rs rt rn s

/-- LDUMAX (W), R407. -/
def execLdumaxW (rs rt rn : Reg) (s : State) : Out :=
  atomicUpdate .umax .word false false rs rt rn s

/-- LDUMAX (X), R407. -/
def execLdumaxX (rs rt rn : Reg) (s : State) : Out :=
  atomicUpdate .umax .dword false false rs rt rn s

/-- LDUMAXLB, R407. -/
def execLdumaxlb (rs rt rn : Reg) (s : State) : Out :=
  atomicUpdate .umax .byte false true rs rt rn s

/-- LDUMAXLH, R407. -/
def execLdumaxlh (rs rt rn : Reg) (s : State) : Out :=
  atomicUpdate .umax .half false true rs rt rn s

/-- LDUMAXL (W), R407. -/
def execLdumaxlW (rs rt rn : Reg) (s : State) : Out :=
  atomicUpdate .umax .word false true rs rt rn s

/-- LDUMAXL (X), R407. -/
def execLdumaxlX (rs rt rn : Reg) (s : State) : Out :=
  atomicUpdate .umax .dword false true rs rt rn s

/-- LDUMAXAB, R407. -/
def execLdumaxab (rs rt rn : Reg) (s : State) : Out :=
  atomicUpdate .umax .byte true false rs rt rn s

/-- LDUMAXAH, R407. -/
def execLdumaxah (rs rt rn : Reg) (s : State) : Out :=
  atomicUpdate .umax .half true false rs rt rn s

/-- LDUMAXA (W), R407. -/
def execLdumaxaW (rs rt rn : Reg) (s : State) : Out :=
  atomicUpdate .umax .word true false rs rt rn s

/-- LDUMAXA (X), R407. -/
def execLdumaxaX (rs rt rn : Reg) (s : State) : Out :=
  atomicUpdate .umax .dword true false rs rt rn s

/-- LDUMAXALB, R407. -/
def execLdumaxalb (rs rt rn : Reg) (s : State) : Out :=
  atomicUpdate .umax .byte true true rs rt rn s

/-- LDUMAXALH, R407. -/
def execLdumaxalh (rs rt rn : Reg) (s : State) : Out :=
  atomicUpdate .umax .half true true rs rt rn s

/-- LDUMAXAL (W), R407. -/
def execLdumaxalW (rs rt rn : Reg) (s : State) : Out :=
  atomicUpdate .umax .word true true rs rt rn s

/-- LDUMAXAL (X), R407. -/
def execLdumaxalX (rs rt rn : Reg) (s : State) : Out :=
  atomicUpdate .umax .dword true true rs rt rn s

/-- LDUMINB, R408. -/
def execLduminb (rs rt rn : Reg) (s : State) : Out :=
  atomicUpdate .umin .byte false false rs rt rn s

/-- LDUMINH, R408. -/
def execLduminh (rs rt rn : Reg) (s : State) : Out :=
  atomicUpdate .umin .half false false rs rt rn s

/-- LDUMIN (W), R408. -/
def execLduminW (rs rt rn : Reg) (s : State) : Out :=
  atomicUpdate .umin .word false false rs rt rn s

/-- LDUMIN (X), R408. -/
def execLduminX (rs rt rn : Reg) (s : State) : Out :=
  atomicUpdate .umin .dword false false rs rt rn s

/-- LDUMINLB, R408. -/
def execLduminlb (rs rt rn : Reg) (s : State) : Out :=
  atomicUpdate .umin .byte false true rs rt rn s

/-- LDUMINLH, R408. -/
def execLduminlh (rs rt rn : Reg) (s : State) : Out :=
  atomicUpdate .umin .half false true rs rt rn s

/-- LDUMINL (W), R408. -/
def execLduminlW (rs rt rn : Reg) (s : State) : Out :=
  atomicUpdate .umin .word false true rs rt rn s

/-- LDUMINL (X), R408. -/
def execLduminlX (rs rt rn : Reg) (s : State) : Out :=
  atomicUpdate .umin .dword false true rs rt rn s

/-- LDUMINAB, R408. -/
def execLduminab (rs rt rn : Reg) (s : State) : Out :=
  atomicUpdate .umin .byte true false rs rt rn s

/-- LDUMINAH, R408. -/
def execLduminah (rs rt rn : Reg) (s : State) : Out :=
  atomicUpdate .umin .half true false rs rt rn s

/-- LDUMINA (W), R408. -/
def execLduminaW (rs rt rn : Reg) (s : State) : Out :=
  atomicUpdate .umin .word true false rs rt rn s

/-- LDUMINA (X), R408. -/
def execLduminaX (rs rt rn : Reg) (s : State) : Out :=
  atomicUpdate .umin .dword true false rs rt rn s

/-- LDUMINALB, R408. -/
def execLduminalb (rs rt rn : Reg) (s : State) : Out :=
  atomicUpdate .umin .byte true true rs rt rn s

/-- LDUMINALH, R408. -/
def execLduminalh (rs rt rn : Reg) (s : State) : Out :=
  atomicUpdate .umin .half true true rs rt rn s

/-- LDUMINAL (W), R408. -/
def execLduminalW (rs rt rn : Reg) (s : State) : Out :=
  atomicUpdate .umin .word true true rs rt rn s

/-- LDUMINAL (X), R408. -/
def execLduminalX (rs rt rn : Reg) (s : State) : Out :=
  atomicUpdate .umin .dword true true rs rt rn s

/-- SWPB, R409. -/
def execSwpb (rs rt rn : Reg) (s : State) : Out :=
  atomicUpdate .swp .byte false false rs rt rn s

/-- SWPH, R409. -/
def execSwph (rs rt rn : Reg) (s : State) : Out :=
  atomicUpdate .swp .half false false rs rt rn s

/-- SWP (W), R409. -/
def execSwpW (rs rt rn : Reg) (s : State) : Out :=
  atomicUpdate .swp .word false false rs rt rn s

/-- SWP (X), R409. -/
def execSwpX (rs rt rn : Reg) (s : State) : Out :=
  atomicUpdate .swp .dword false false rs rt rn s

/-- SWPLB, R409. -/
def execSwplb (rs rt rn : Reg) (s : State) : Out :=
  atomicUpdate .swp .byte false true rs rt rn s

/-- SWPLH, R409. -/
def execSwplh (rs rt rn : Reg) (s : State) : Out :=
  atomicUpdate .swp .half false true rs rt rn s

/-- SWPL (W), R409. -/
def execSwplW (rs rt rn : Reg) (s : State) : Out :=
  atomicUpdate .swp .word false true rs rt rn s

/-- SWPL (X), R409. -/
def execSwplX (rs rt rn : Reg) (s : State) : Out :=
  atomicUpdate .swp .dword false true rs rt rn s

/-- SWPAB, R409. -/
def execSwpab (rs rt rn : Reg) (s : State) : Out :=
  atomicUpdate .swp .byte true false rs rt rn s

/-- SWPAH, R409. -/
def execSwpah (rs rt rn : Reg) (s : State) : Out :=
  atomicUpdate .swp .half true false rs rt rn s

/-- SWPA (W), R409. -/
def execSwpaW (rs rt rn : Reg) (s : State) : Out :=
  atomicUpdate .swp .word true false rs rt rn s

/-- SWPA (X), R409. -/
def execSwpaX (rs rt rn : Reg) (s : State) : Out :=
  atomicUpdate .swp .dword true false rs rt rn s

/-- SWPALB, R409. -/
def execSwpalb (rs rt rn : Reg) (s : State) : Out :=
  atomicUpdate .swp .byte true true rs rt rn s

/-- SWPALH, R409. -/
def execSwpalh (rs rt rn : Reg) (s : State) : Out :=
  atomicUpdate .swp .half true true rs rt rn s

/-- SWPAL (W), R409. -/
def execSwpalW (rs rt rn : Reg) (s : State) : Out :=
  atomicUpdate .swp .word true true rs rt rn s

/-- SWPAL (X), R409. -/
def execSwpalX (rs rt rn : Reg) (s : State) : Out :=
  atomicUpdate .swp .dword true true rs rt rn s

end Sys2Proof.Machine
end

