-- ==== Sys2Proof/Machine/AtomicStore.lean ====
section
/-! DEFINITION. The store-only atomics ST<op>: LD<op> with register 31 as destination and no
acquire (R410). -/

namespace Sys2Proof.Machine

/-- STADDB, R410. -/
def execStaddb (rs rn : Reg) (s : State) : Out :=
  atomicUpdate .add .byte false false rs 31 rn s

/-- STADDH, R410. -/
def execStaddh (rs rn : Reg) (s : State) : Out :=
  atomicUpdate .add .half false false rs 31 rn s

/-- STADD (W), R410. -/
def execStaddW (rs rn : Reg) (s : State) : Out :=
  atomicUpdate .add .word false false rs 31 rn s

/-- STADD (X), R410. -/
def execStaddX (rs rn : Reg) (s : State) : Out :=
  atomicUpdate .add .dword false false rs 31 rn s

/-- STADDLB, R410. -/
def execStaddlb (rs rn : Reg) (s : State) : Out :=
  atomicUpdate .add .byte false true rs 31 rn s

/-- STADDLH, R410. -/
def execStaddlh (rs rn : Reg) (s : State) : Out :=
  atomicUpdate .add .half false true rs 31 rn s

/-- STADDL (W), R410. -/
def execStaddlW (rs rn : Reg) (s : State) : Out :=
  atomicUpdate .add .word false true rs 31 rn s

/-- STADDL (X), R410. -/
def execStaddlX (rs rn : Reg) (s : State) : Out :=
  atomicUpdate .add .dword false true rs 31 rn s

/-- STCLRB, R410. -/
def execStclrb (rs rn : Reg) (s : State) : Out :=
  atomicUpdate .clr .byte false false rs 31 rn s

/-- STCLRH, R410. -/
def execStclrh (rs rn : Reg) (s : State) : Out :=
  atomicUpdate .clr .half false false rs 31 rn s

/-- STCLR (W), R410. -/
def execStclrW (rs rn : Reg) (s : State) : Out :=
  atomicUpdate .clr .word false false rs 31 rn s

/-- STCLR (X), R410. -/
def execStclrX (rs rn : Reg) (s : State) : Out :=
  atomicUpdate .clr .dword false false rs 31 rn s

/-- STCLRLB, R410. -/
def execStclrlb (rs rn : Reg) (s : State) : Out :=
  atomicUpdate .clr .byte false true rs 31 rn s

/-- STCLRLH, R410. -/
def execStclrlh (rs rn : Reg) (s : State) : Out :=
  atomicUpdate .clr .half false true rs 31 rn s

/-- STCLRL (W), R410. -/
def execStclrlW (rs rn : Reg) (s : State) : Out :=
  atomicUpdate .clr .word false true rs 31 rn s

/-- STCLRL (X), R410. -/
def execStclrlX (rs rn : Reg) (s : State) : Out :=
  atomicUpdate .clr .dword false true rs 31 rn s

/-- STEORB, R410. -/
def execSteorb (rs rn : Reg) (s : State) : Out :=
  atomicUpdate .eor .byte false false rs 31 rn s

/-- STEORH, R410. -/
def execSteorh (rs rn : Reg) (s : State) : Out :=
  atomicUpdate .eor .half false false rs 31 rn s

/-- STEOR (W), R410. -/
def execSteorW (rs rn : Reg) (s : State) : Out :=
  atomicUpdate .eor .word false false rs 31 rn s

/-- STEOR (X), R410. -/
def execSteorX (rs rn : Reg) (s : State) : Out :=
  atomicUpdate .eor .dword false false rs 31 rn s

/-- STEORLB, R410. -/
def execSteorlb (rs rn : Reg) (s : State) : Out :=
  atomicUpdate .eor .byte false true rs 31 rn s

/-- STEORLH, R410. -/
def execSteorlh (rs rn : Reg) (s : State) : Out :=
  atomicUpdate .eor .half false true rs 31 rn s

/-- STEORL (W), R410. -/
def execSteorlW (rs rn : Reg) (s : State) : Out :=
  atomicUpdate .eor .word false true rs 31 rn s

/-- STEORL (X), R410. -/
def execSteorlX (rs rn : Reg) (s : State) : Out :=
  atomicUpdate .eor .dword false true rs 31 rn s

/-- STSETB, R410. -/
def execStsetb (rs rn : Reg) (s : State) : Out :=
  atomicUpdate .set .byte false false rs 31 rn s

/-- STSETH, R410. -/
def execStseth (rs rn : Reg) (s : State) : Out :=
  atomicUpdate .set .half false false rs 31 rn s

/-- STSET (W), R410. -/
def execStsetW (rs rn : Reg) (s : State) : Out :=
  atomicUpdate .set .word false false rs 31 rn s

/-- STSET (X), R410. -/
def execStsetX (rs rn : Reg) (s : State) : Out :=
  atomicUpdate .set .dword false false rs 31 rn s

/-- STSETLB, R410. -/
def execStsetlb (rs rn : Reg) (s : State) : Out :=
  atomicUpdate .set .byte false true rs 31 rn s

/-- STSETLH, R410. -/
def execStsetlh (rs rn : Reg) (s : State) : Out :=
  atomicUpdate .set .half false true rs 31 rn s

/-- STSETL (W), R410. -/
def execStsetlW (rs rn : Reg) (s : State) : Out :=
  atomicUpdate .set .word false true rs 31 rn s

/-- STSETL (X), R410. -/
def execStsetlX (rs rn : Reg) (s : State) : Out :=
  atomicUpdate .set .dword false true rs 31 rn s

/-- STSMAXB, R410. -/
def execStsmaxb (rs rn : Reg) (s : State) : Out :=
  atomicUpdate .smax .byte false false rs 31 rn s

/-- STSMAXH, R410. -/
def execStsmaxh (rs rn : Reg) (s : State) : Out :=
  atomicUpdate .smax .half false false rs 31 rn s

/-- STSMAX (W), R410. -/
def execStsmaxW (rs rn : Reg) (s : State) : Out :=
  atomicUpdate .smax .word false false rs 31 rn s

/-- STSMAX (X), R410. -/
def execStsmaxX (rs rn : Reg) (s : State) : Out :=
  atomicUpdate .smax .dword false false rs 31 rn s

/-- STSMAXLB, R410. -/
def execStsmaxlb (rs rn : Reg) (s : State) : Out :=
  atomicUpdate .smax .byte false true rs 31 rn s

/-- STSMAXLH, R410. -/
def execStsmaxlh (rs rn : Reg) (s : State) : Out :=
  atomicUpdate .smax .half false true rs 31 rn s

/-- STSMAXL (W), R410. -/
def execStsmaxlW (rs rn : Reg) (s : State) : Out :=
  atomicUpdate .smax .word false true rs 31 rn s

/-- STSMAXL (X), R410. -/
def execStsmaxlX (rs rn : Reg) (s : State) : Out :=
  atomicUpdate .smax .dword false true rs 31 rn s

/-- STSMINB, R410. -/
def execStsminb (rs rn : Reg) (s : State) : Out :=
  atomicUpdate .smin .byte false false rs 31 rn s

/-- STSMINH, R410. -/
def execStsminh (rs rn : Reg) (s : State) : Out :=
  atomicUpdate .smin .half false false rs 31 rn s

/-- STSMIN (W), R410. -/
def execStsminW (rs rn : Reg) (s : State) : Out :=
  atomicUpdate .smin .word false false rs 31 rn s

/-- STSMIN (X), R410. -/
def execStsminX (rs rn : Reg) (s : State) : Out :=
  atomicUpdate .smin .dword false false rs 31 rn s

/-- STSMINLB, R410. -/
def execStsminlb (rs rn : Reg) (s : State) : Out :=
  atomicUpdate .smin .byte false true rs 31 rn s

/-- STSMINLH, R410. -/
def execStsminlh (rs rn : Reg) (s : State) : Out :=
  atomicUpdate .smin .half false true rs 31 rn s

/-- STSMINL (W), R410. -/
def execStsminlW (rs rn : Reg) (s : State) : Out :=
  atomicUpdate .smin .word false true rs 31 rn s

/-- STSMINL (X), R410. -/
def execStsminlX (rs rn : Reg) (s : State) : Out :=
  atomicUpdate .smin .dword false true rs 31 rn s

/-- STUMAXB, R410. -/
def execStumaxb (rs rn : Reg) (s : State) : Out :=
  atomicUpdate .umax .byte false false rs 31 rn s

/-- STUMAXH, R410. -/
def execStumaxh (rs rn : Reg) (s : State) : Out :=
  atomicUpdate .umax .half false false rs 31 rn s

/-- STUMAX (W), R410. -/
def execStumaxW (rs rn : Reg) (s : State) : Out :=
  atomicUpdate .umax .word false false rs 31 rn s

/-- STUMAX (X), R410. -/
def execStumaxX (rs rn : Reg) (s : State) : Out :=
  atomicUpdate .umax .dword false false rs 31 rn s

/-- STUMAXLB, R410. -/
def execStumaxlb (rs rn : Reg) (s : State) : Out :=
  atomicUpdate .umax .byte false true rs 31 rn s

/-- STUMAXLH, R410. -/
def execStumaxlh (rs rn : Reg) (s : State) : Out :=
  atomicUpdate .umax .half false true rs 31 rn s

/-- STUMAXL (W), R410. -/
def execStumaxlW (rs rn : Reg) (s : State) : Out :=
  atomicUpdate .umax .word false true rs 31 rn s

/-- STUMAXL (X), R410. -/
def execStumaxlX (rs rn : Reg) (s : State) : Out :=
  atomicUpdate .umax .dword false true rs 31 rn s

/-- STUMINB, R410. -/
def execStuminb (rs rn : Reg) (s : State) : Out :=
  atomicUpdate .umin .byte false false rs 31 rn s

/-- STUMINH, R410. -/
def execStuminh (rs rn : Reg) (s : State) : Out :=
  atomicUpdate .umin .half false false rs 31 rn s

/-- STUMIN (W), R410. -/
def execStuminW (rs rn : Reg) (s : State) : Out :=
  atomicUpdate .umin .word false false rs 31 rn s

/-- STUMIN (X), R410. -/
def execStuminX (rs rn : Reg) (s : State) : Out :=
  atomicUpdate .umin .dword false false rs 31 rn s

/-- STUMINLB, R410. -/
def execStuminlb (rs rn : Reg) (s : State) : Out :=
  atomicUpdate .umin .byte false true rs 31 rn s

/-- STUMINLH, R410. -/
def execStuminlh (rs rn : Reg) (s : State) : Out :=
  atomicUpdate .umin .half false true rs 31 rn s

/-- STUMINL (W), R410. -/
def execStuminlW (rs rn : Reg) (s : State) : Out :=
  atomicUpdate .umin .word false true rs 31 rn s

/-- STUMINL (X), R410. -/
def execStuminlX (rs rn : Reg) (s : State) : Out :=
  atomicUpdate .umin .dword false true rs 31 rn s

end Sys2Proof.Machine
end

