-- ==== Sys2Proof/Machine/Branch.lean ====
section
/-! DEFINITION. Control transfer: calls, returns, exception returns, with pointer authentication
(R346 to R357). -/

namespace Sys2Proof.Machine

/-! Pointer authentication (R356) -/

/-- The canonical pointer below the authentication code: bit 55 copied into bits [63:48] (R356;
log entry 30). -/
def canonicalPointer (p : Word) : Word :=
  if bit p 55 then p ||| 0xFFFF000000000000 else p &&& 0x0000FFFFFFFFFFFF

/-- A fetch from the address may set a tag in its bits [63:56] aside, in some regime: the TCR of one
of them, or a value of it that may still be seen, has top byte ignore on and not for data alone, in
the places of `State.tagIgnored` (R44, R620). -/
def State.fetchMayIgnoreTag (s : State) (va : Word) : Bool :=
  let ignores (r : SysReg) (tbi tbid : Nat) : Bool :=
    (s.get r :: s.olds r).any fun w => bit w tbi && !bit w tbid
  let range (r : SysReg) : Bool := if bit va 55 then ignores r 38 52 else ignores r 37 51
  range .tcr_el1 || range .tcr_el2 || ignores .tcr_el2 20 29 || ignores .tcr_el3 20 29

/-- A pointer whose authentication failed: the error code, 01 for key A and 10 for key B, in bits
[62:61], or in bits [54:53] where a fetch may set the tag aside, so that no fetch from it finds a
canonical address (R356 (c), U14; log entry 30). -/
def State.failedPointer (s : State) (p : Word) (keyB : Bool) : Word :=
  let code : Nat := if s.fetchMayIgnoreTag p then 53 else 61
  (canonicalPointer p &&& ~~~(3#64 <<< code)) ||| ((if keyB then 2#64 else 1#64) <<< code)

/-- Authentication with the key is enabled: `SCTLR_ELx.EnIA` [31], `EnIB` [30] (R356; places
PRESUMED, log entry 30). -/
def State.authEnabled (s : State) (keyB : Bool) : Bool := bit s.sctlr (if keyB then 30 else 31)

/-- The places of the authentication code in a pointer: bits [63:56] and [54:48] (log entry 30). -/
def pacMask : Word := 0xFF7F000000000000

/-- `AddPAC(key, p, modifier)` for a canonical pointer, with the key from its two registers
(R356). -/
def State.addPac (s : State) (keyB : Bool) (p modifier : Word) : Word :=
  let code := if keyB then
      Config.pacCode (s.ctl .apibkeyhi_el1) (s.ctl .apibkeylo_el1) p modifier
    else Config.pacCode (s.ctl .apiakeyhi_el1) (s.ctl .apiakeylo_el1) p modifier
  (p &&& ~~~pacMask) ||| (code &&& pacMask)

/-- The code in the pointer is the one `AddPAC` would insert into its canonical pointer
(R356 (b)). -/
def State.authPasses (s : State) (keyB : Bool) (p modifier : Word) : Bool :=
  s.addPac keyB (canonicalPointer p) modifier == p

/-- `AuthI(key, ptr, modifier)` (R356): `none` where it raises a Pointer Authentication fault. -/
def State.authI (s : State) (keyB : Bool) (p modifier : Word) : Option Word :=
  if !s.authEnabled keyB then some p
  else if s.authPasses keyB p modifier then some (canonicalPointer p)
  else if s.cfg.fpacImplemented then none
  else some (s.failedPointer p keyB)

/-- The Pointer Authentication fault: class 0x1C; the syndrome bit [0] names the key (R356; log
entry 48). -/
def State.authFault (s : State) (keyB : Bool) : State :=
  s.takeSync s.syncTarget 0x1C (if keyB then 1 else 0)

/-- The rest of an instruction after an authentication. -/
def State.withAuth (s : State) (keyB : Bool) (p modifier : Word) (go : Word → Out) : Out :=
  match s.authI keyB p modifier with
  | some target => go target
  | none => .next (s.authFault keyB)

/-! Calls, returns, exception returns -/

/-- A call: `x[30] <- pc + 4`, a push of the return stack, the branch (R346, R348). -/
def State.call (s : State) (target : Word) (btype : BitVec 2) : Out :=
  if s.pc.toNat + 4 < 2 ^ 64 then
    .next (((s.setX 30 (s.pc + 4)).pushReturn (s.pc + 4)).branchTo target btype)
  else .refused .pcOverflow

/-- A return: a pop of the return stack, the branch (R346, R352). -/
def State.return (s : State) (target : Word) : Out := .next (s.popReturn.branchTo target 0)

/-- The call of a register form leaves `BTYPE` 0b10 (R349). -/
def callRegister (keyB : Bool) (rn : Reg) (modifier : Word) (s : State) : Out :=
  s.withAuth keyB (s.xr rn) modifier fun t => s.call t 2

/-- `BL <label>` (R348). -/
def execBl (imm26 : BitVec 26) (s : State) : Out := s.call (s.pc + branchOffset imm26) 0

/-- `BLR <Xn>` (R349). -/
def execBlr (rn : Reg) (s : State) : Out := s.call (s.xr rn) 2

/-- `BLRAAZ <Xn>` (R350). -/
def execBlraaz (rn : Reg) (s : State) : Out := callRegister false rn 0 s

/-- `BLRABZ <Xn>` (R350). -/
def execBlrabz (rn : Reg) (s : State) : Out := callRegister true rn 0 s

/-- `BLRAA <Xn>, <Xm|SP>` (R351). -/
def execBlraa (rn rm : Reg) (s : State) : Out := callRegister false rn (s.base rm) s

/-- `BLRAB <Xn>, <Xm|SP>` (R351). -/
def execBlrab (rn rm : Reg) (s : State) : Out := callRegister true rn (s.base rm) s

/-- `RET {<Xn>}` (R352). -/
def execRet (rn : Reg) (s : State) : Out := s.return (s.xr rn)

/-- `RETAA` (R353). -/
def execRetaa (s : State) : Out := s.withAuth false (s.xr 30) s.spCur s.return

/-- `RETAB` (R353). -/
def execRetab (s : State) : Out := s.withAuth true (s.xr 30) s.spCur s.return

/-- Under nested virtualisation, `HCR_EL2.NV` [42], an exception return at EL1 is trapped to EL2
(R354; place PRESUMED, log entry 12). -/
def State.returnTrapped (s : State) : Bool := s.el == 1 && s.hcrBelow 42

/-- The trap of an exception return: class 0x1A; the syndrome says whether it authenticates [1] and
with which key [0] (R354; PRESUMED, log entry 48). -/
def State.returnTrap (s : State) (iss : BitVec 25) : State := s.takeSync 2 0x1A iss

/-- `ERET` (R354): UNDEFINED at EL0. -/
def execEret (s : State) : Out :=
  if s.el = 0 then .next s.undefined
  else if s.returnTrapped then .next (s.returnTrap 0)
  else .next (s.exceptionReturn (s.get (elrOf s.el)))

/-- An exception return with authentication of `ELR_ELx` (R355). -/
def returnAuth (keyB : Bool) (s : State) : Out :=
  if s.el = 0 then .next s.undefined
  else if s.returnTrapped then .next (s.returnTrap (if keyB then 3 else 2))
  else s.withAuth keyB (s.get (elrOf s.el)) s.spCur fun t => .next (s.exceptionReturn t)

/-- `ERETAA` (R355). -/
def execEretaa (s : State) : Out := returnAuth false s

/-- `ERETAB` (R355). -/
def execEretab (s : State) : Out := returnAuth true s

end Sys2Proof.Machine
end

