-- ==== Sys2Proof/Machine/SysGates.lean ====
section
/-! DEFINITION. Whether an MRS or MSR may access its register: UNDEFINED cases and traps, those of
a higher level first (R318, R437, R452, R457, R469, R540 to R542). -/

namespace Sys2Proof.Machine

/-- The PMU event counters and event type registers, by number (R65). -/
def pmevcntrs : List SysReg :=
  [.pmevcntr0_el0, .pmevcntr1_el0, .pmevcntr2_el0, .pmevcntr3_el0, .pmevcntr4_el0,
   .pmevcntr5_el0, .pmevcntr6_el0, .pmevcntr7_el0, .pmevcntr8_el0, .pmevcntr9_el0,
   .pmevcntr10_el0, .pmevcntr11_el0, .pmevcntr12_el0, .pmevcntr13_el0, .pmevcntr14_el0,
   .pmevcntr15_el0, .pmevcntr16_el0, .pmevcntr17_el0, .pmevcntr18_el0, .pmevcntr19_el0]

def pmevtypers : List SysReg :=
  [.pmevtyper0_el0, .pmevtyper1_el0, .pmevtyper2_el0, .pmevtyper3_el0, .pmevtyper4_el0,
   .pmevtyper5_el0, .pmevtyper6_el0, .pmevtyper7_el0, .pmevtyper8_el0, .pmevtyper9_el0,
   .pmevtyper10_el0, .pmevtyper11_el0, .pmevtyper12_el0, .pmevtyper13_el0, .pmevtyper14_el0,
   .pmevtyper15_el0, .pmevtyper16_el0, .pmevtyper17_el0, .pmevtyper18_el0, .pmevtyper19_el0]

/-- The number of a register in a list, if it is there. -/
def numberIn (l : List SysReg) (r : SysReg) : Option Nat := l.findIdx? (· == r)

/-- The register does not exist in this build: SPE absent, or a counter beyond
`NUM_PMU_COUNTERS` (R13, R68, R452 (c)). -/
def State.absent (s : State) (r : SysReg) : Bool :=
  (r.info.group == .spe && !s.cfg.spePresent) ||
  ((numberIn pmevcntrs r).any fun n => s.cfg.pmuCounters.count ≤ n) ||
  ((numberIn pmevtypers r).any fun n => s.cfg.pmuCounters.count ≤ n)

/-- The lowest level that may read or write the register, by the suffix of its name (R318 (d)); none
for a write of a read-only register and a read of a write-only one (R315, R316). -/
def accessLevel (r : SysReg) (read : Bool) : Option EL :=
  if read then r.info.readLevel else r.info.writeLevel

/-- The level allows the access. -/
def State.levelAllows (s : State) (r : SysReg) (read : Bool) : Bool :=
  match accessLevel r read with
  | some l => l ≤ s.el
  | none => false

/-- The level that traps an access which `IMP_ACCESS` denies (R318, R457): from EL1 that of EL2
where it may itself access the register, else EL3 (log entry 15). -/
def State.impTrap (s : State) (r : SysReg) : Option EL :=
  if r.info.group == .imp then
    if s.el = 2 && !s.cfg.impAccessEl2.contains r then some 3
    else if s.el = 1 && !s.cfg.impAccessEl1.contains r then
      (if s.el2Enabled && s.cfg.impAccessEl2.contains r then some 2 else some 3)
    else none
  else none

/-- The system register interface of the GIC is on at this level: `ICC_SRE_ELx.SRE` [0], which the
registers that hold it do not need (R479). -/
def State.gicSystem (s : State) (r : SysReg) : Bool :=
  r == .icc_sre_el1 || r == .icc_sre_el2 || r == .icc_sre_el3 ||
    bit (s.ctl (atLevel s.el .icc_sre_el1 .icc_sre_el2 .icc_sre_el3)) 0

/-- The register is there for no level: the GIC CPU interface disabled or not by system registers,
a unit or counter absent (R452 (a), (c), R479). -/
def State.sysAbsent (s : State) (r : SysReg) : Bool :=
  (r.info.group == .gic && (s.gicDisabled || !s.gicSystem r)) || s.absent r

/-- The access is UNDEFINED at this level (R452 (b), (d)): by the suffix of the name alone, also for
the stack pointers (R318; log entry 15). -/
def State.sysUndefined (s : State) (r : SysReg) (read : Bool) : Bool := !s.levelAllows r read

/-- A trapped MRS or MSR at `pc`, to level `t` (R457 (b)). -/
def State.trapSys (s : State) (t : EL) (e : SysEnc) (rt : Reg) (read : Bool) : State :=
  s.takeSync t 0x18 (sysIss (2 + e.o0.toNat) e.op1 e.crn e.crm e.op2 rt read)

/-- The condition field of a trap of an unconditional instruction: `CV` [24], `COND` [23:20] =
0b1110 (R457). The trap of an Advanced SIMD or floating-point register, EC 0x07, has it too, and
that of SVE, EC 0x19, has a syndrome of 0 (PRESUMED, log entry 48). -/
def trapCond : BitVec 25 := 0x1E00000

/-- The level that traps accesses to the Advanced SIMD and floating-point registers:
`CPTR_EL3.TFP` [10]; `CPTR_EL2.TFP` [10], or `FPEN` [21:20] under `E2H`; `CPACR_EL1.FPEN` [21:20]
(R437). `TFP` traps when it is set, `FPEN` at 0b00 and 0b10 every level it controls and at 0b01 EL0
alone (places and values PRESUMED, log entry 12). -/
def State.fpTrap (s : State) : Option EL :=
  let f2 := field (s.ctl .cptr_el2) 20 2
  let f1 := field (s.ctl .cpacr_el1) 20 2
  if bit (s.ctl .cptr_el3) 10 then some 3
  else if s.el < 3 && s.el2Enabled && (if s.e2h then
      f2 == 0 || f2 == 2 || (f2 == 1 && s.hostEl0) else bit (s.ctl .cptr_el2) 10) then some 2
  else if s.el < 2 && !s.hostEl0 && (f1 == 0 || f1 == 2 || (f1 == 1 && s.el == 0)) then
    some s.syncTarget
  else none

/-- The level that traps SVE accesses: `CPTR_EL3.EZ` [8] clear; `CPTR_EL2.TZ` [8] set, or `ZEN`
[17:16] under `E2H`; `CPACR_EL1.ZEN` [17:16], with the values of `FPEN` (R437; places and values
PRESUMED, log entry 12). -/
def State.sveTrap (s : State) : Option EL :=
  let f2 := field (s.ctl .cptr_el2) 16 2
  let f1 := field (s.ctl .cpacr_el1) 16 2
  if !bit (s.ctl .cptr_el3) 8 then some 3
  else if s.el < 3 && s.el2Enabled && (if s.e2h then
      f2 == 0 || f2 == 2 || (f2 == 1 && s.hostEl0) else bit (s.ctl .cptr_el2) 8) then some 2
  else if s.el < 2 && !s.hostEl0 && (f1 == 0 || f1 == 2 || (f1 == 1 && s.el == 0)) then
    some s.syncTarget
  else none

/-- The level that traps an Activity Monitors access: `CPTR_EL2.TAM` [30] below EL2,
`CPTR_EL3.TAM` [30] below EL3 where that does not apply, `AMUSERENR_EL0.EN` [0] at EL0 (R540,
R541; places PRESUMED, log entry 12). -/
def State.amuTrap (s : State) : Option EL :=
  if s.el < 2 && s.el2Enabled && bit (s.ctl .cptr_el2) 30 then some 2
  else if s.el < 3 && bit (s.ctl .cptr_el3) 30 then some 3
  else if s.el = 0 && !bit (s.ctl .amuserenr_el0) 0 then some s.syncTarget
  else none

/-- An access from EL0 that a control of EL1 does not allow (PRESUMED, log entry 15). -/
def State.el0Denied (s : State) (r : SysReg) : Bool :=
  s.el == 0 && (match r with
    | .daif => !bit s.sctlr 9
    | .ctr_el0 => !bit s.sctlr 15
    | .cntpct_el0 => !bit (s.ctl .cntkctl_el1) 0
    | .cntvct_el0 => !bit (s.ctl .cntkctl_el1) 1
    | .cntfrq_el0 => !bit (s.ctl .cntkctl_el1) 0 && !bit (s.ctl .cntkctl_el1) 1
    | .cntv_tval_el0 | .cntv_ctl_el0 | .cntv_cval_el0 => !bit (s.ctl .cntkctl_el1) 8
    | .cntp_tval_el0 | .cntp_ctl_el0 | .cntp_cval_el0 => !bit (s.ctl .cntkctl_el1) 9
    | .mdccsr_el0 | .dbgdtr_el0 | .dbgdtrx_el0 => bit (s.ctl .mdscr_el1) 12
    | .pmuserenr_el0 => false
    | _ => r.info.group == .pmu && !bit (s.ctl .pmuserenr_el0) 0)

/-- The bit of `MDCR_EL2` and `MDCR_EL3` that traps an access: `TPM` [6] for the Performance
Monitors, `TDOSA` [10] for the OS Lock, `TDA` [9] for the other debug registers, `TPMS` [14] for
Statistical Profiling (R466; places PRESUMED, log entry 12). -/
def mdcrBit (r : SysReg) : Option Nat :=
  match r.info.group with
  | .pmu => some 6
  | .debug => some (if r == .oslar_el1 || r == .oslsr_el1 then 10 else 9)
  | .spe => some 14
  | _ => none

/-- The level to which `MDCR_EL3` or `MDCR_EL2` traps an access, the higher one first;
`MDCR_EL2.TPMCR` [5] traps `PMCR_EL0` alone (R466, R469). -/
def State.mdcrTrap (s : State) (r : SysReg) : Option EL :=
  match mdcrBit r with
  | none => none
  | some i =>
    if s.el < 3 && bit (s.ctl .mdcr_el3) i then some 3
    else if s.el < 2 && s.el2Enabled &&
        (bit (s.ctl .mdcr_el2) i || (r == .pmcr_el0 && bit (s.ctl .mdcr_el2) 5)) then some 2
    else none

/-- The level to which an access is trapped that its level would allow. -/
def State.trapLevel (s : State) (r : SysReg) : Option EL :=
  match s.mdcrTrap r with
  | some t => some t
  | none =>
    match s.impTrap r with
    | some t => some t
    | none => if s.el0Denied r then some s.syncTarget else none

/-- The exception an access takes instead of its effect, if any (R318). A write of a read-only
register, or a read of a write-only one, is UNDEFINED before any trap (R315, R316, R469). The traps
of the Activity Monitors come before an access is UNDEFINED at its level (R452 (d), R541). -/
def State.sysGate (s : State) (r : SysReg) (e : SysEnc) (rt : Reg) (read : Bool) : Option State :=
  if s.sysAbsent r || (accessLevel r read).isNone then some s.undefined
  else match (if r.info.group == .amu then s.amuTrap else none) with
    | some t => some (s.trapSys t e rt read)
    | none =>
      if s.sysUndefined r read then some s.undefined
      else match r.info.group with
        | .fp => s.fpTrap.map fun t => s.takeSync t 0x07 trapCond
        | .sve => s.sveTrap.map fun t => s.takeSync t 0x19 0
        | _ => (s.trapLevel r).map fun t => s.trapSys t e rt read

end Sys2Proof.Machine
end

