-- ==== Sys2Proof/Machine/CacheMaint.lean ====
section
/-! DEFINITION. Prefetch and data cache instructions: PRFM, PRFUM, DC ZVA, DC CISW, DC IVAC (R411 to
R416). -/

namespace Sys2Proof.Machine

/-! DC ZVA (R412) -/

/-- A trapped `DC` operation (R457 (b)). -/
def State.trapDc (s : State) (t : EL) (op1 : BitVec 3) (crm : BitVec 4) (op2 : BitVec 3)
    (rt : Reg) : State := s.takeSync t 0x18 (sysIss 1 op1 7 crm op2 rt false)

/-- The trap of `DC ZVA`: `HCR_EL2.TDZ` [28] below EL2, then `SCTLR_EL1.DZE` [14] clear at EL0
(R412; places PRESUMED, log entry 12). Under `E2H` and `TGE` it is the bit of `SCTLR_EL2`, the SCTLR
of the regime of EL0 (PRESUMED, log entry 37). -/
def State.zvaTrap (s : State) (rt : Reg) : Option State :=
  if s.hcrBelow 28 then some (s.trapDc 2 3 4 1 rt)
  else if s.el = 0 && !bit s.sctlr 14 then some (s.trapDc s.syncTarget 3 4 1 rt)
  else none

/-- The access of `DC ZVA`: a store of the 64-byte block of the address; FAR is the address given
(R412). -/
def zvaReq (va : Word) : Req := ⟨va, 64, false, false, false, true, false⟩

/-- A mapping moved to the start of its 64-byte block. -/
def blockStart (m : Mapped) : Mapped := { m with pa := (m.pa >>> 6) <<< 6 }

/-- A block is written or dropped whole: poison and errors in it are gone (R487). -/
def State.healBlock (s : State) (b : Nat) : State :=
  { s with
    poison := s.poison.filter (· != b)
    cache := { s.cache with bad := s.cache.bad.filter (· != b) } }

/-- The effect of `DC ZVA` that completes: 64 zero bytes (R412). -/
def State.doZero (s : State) (m : Mapped) : State :=
  ((((s.healBlock (blockOf (mappedKey m))).asyncError m 64).store m (List.replicate 64 0)).ownStore
    m.pa m.ns).record (.write (mappedKey m) 64 false)

/-- The access of `DC ZVA` once no trap has been taken. It raises no Alignment fault, of Device
memory neither (R251, D2; log entry 64). -/
def State.zeroBlock (s : State) (r : Req) : Out :=
  match s.preCheck r with
  | some o => o
  | none =>
    match s.xlate r .write with
    | .ok s1 m => (s1.afterXlate r (blockStart m)).finish fun s2 m2 =>
        s2.advanceWith fun t => t.doZero m2
    | a => a.finish fun s2 _ => .next s2

/-- `DC ZVA, <Xt>` (R412). -/
def execDcZva (rt : Reg) (s : State) : Out :=
  match s.zvaTrap rt with
  | some t => .next t
  | none => s.zeroBlock (zvaReq (s.xr rt))

/-! DC CISW (R414) -/

/-- log2 of a number of sets, which is a power of two of at least 2^7 (R55). -/
def log2Sets (n : Nat) : Nat := if n ≤ 128 then 7 else if n ≤ 256 then 8 else if n ≤ 512 then 9 else 10

/-- The level (0 or 1), set and way that an operand of `DC CISW` names, `none` where they do not
exist (R414, U11). Of the bits that the operand reserves, those between the set and the way are read
as a set beyond the geometry, and bits [0], [5:4] and [63:32] are ignored (DESIGN CHOICE, log entry
67). -/
def State.setWay (s : State) (w : Word) : Option (Nat × Nat × Nat) :=
  let pick (level ways logWays sets : Nat) : Option (Nat × Nat × Nat) :=
    let set := field w 6 (26 - logWays)
    let way := field w (32 - logWays) logWays
    if set < sets && way < ways then some (level, set, way) else none
  match field w 1 3 with
  | 0 => pick 0 4 2 (l1dSets s.cfg)
  | 1 => pick 1 8 3 (l2Sets s.cfg)
  | _ => none

/-- The L1 data cache with a place cleaned and invalidated: a dirty line is written back towards
memory, into the L2 cache or beyond, which is free (R414). Going into the L2 cache it displaces a
line there, whose error is met where it is dirty (R488). -/
def State.cleanL1 (s : State) (set way : Nat) : Caches :=
  let l2set := s.drawNat .cacheSet 1 % l2Sets s.cfg
  let l2way := s.drawNat .cacheWay 1 % 8
  let gone := s.cache.l1d.filter fun e => lineAt e set way && isDirty e
  let kept := dropPlace s.cache.l1d set way
  let behind := s.cache.l2.filter fun e => !gone.any (fun g => g.block == e.block)
  if !gone.isEmpty && s.drawBool .cacheAllocate 1 then
    { s.cache with
      l1d := kept
      l2 := gone.map (fun e => { e with set := l2set, way := l2way }) ++
        behind.filter fun e => !lineAt e l2set l2way
      met := s.cache.met ++ s.cache.meets (behind.filter fun e => lineAt e l2set l2way && isDirty e) }
  else { s.cache with l1d := kept }

/-- Writing back the dirty line at a place meets an error: the platform's bus, or one in the line
itself (R163 (c), R488). -/
def State.writeBackError (s : State) (l : List CacheLine) (set way : Nat) : Bool :=
  l.any fun e => lineAt e set way && isDirty e &&
    (s.cache.bad.contains e.block ||
      s.cfg.busErrors.any (fun p => p.1 < e.block * 64 + 64 && e.block * 64 < p.2))

/-- The caches after software has cleaned some lines: what a fetch may still see of their blocks is
older than data that is clean now, unless the line is still dirty in the other cache (R192). -/
def Caches.cleanedLines (c : Caches) (lines : List CacheLine) : Caches :=
  let mark (w : OldWord) : OldWord :=
    if holdsBlock lines (blockOf w.key) && (c.dirtyBelow (blockOf w.key)).isNone then
      { w with unclean := false }
    else w
  { c with old := c.old.map mark }

/-- The effect of `DC CISW` that completes. An uncorrected error that the line held outlives it: an
access of its block still meets it (DESIGN CHOICE, log entry 67). -/
def State.doCleanSetWay (s : State) (level set way : Nat) : State :=
  let l := if level = 0 then s.cache.l1d else s.cache.l2
  let s1 := if s.writeBackError l set way then s.pendSError else s
  let c := if level = 0 then s.cleanL1 set way
    else { s.cache with l2 := dropPlace s.cache.l2 set way }
  { s1.record .disturbance with cache := c.cleanedLines (l.filter fun e => lineAt e set way) }

/-- `DC CISW, <Xt>` (R414): UNDEFINED at EL0, trapped by `HCR_EL2.TSW` [22]. -/
def execDcCisw (rt : Reg) (s : State) : Out :=
  if s.el = 0 then .next s.undefined
  else if s.hcrBelow 22 then .next (s.trapDc 2 0 14 2 rt)
  else match s.setWay (s.xr rt) with
    | none => .refused .setWayOutOfRange
    | some (level, set, way) => s.advanceWith fun t => t.doCleanSetWay level set way

/-! DC IVAC (R416) -/

/-- The access of `DC IVAC`: needs write permission, `CM` in the syndrome (R416, R454). -/
def ivacReq (va : Word) : Req := ⟨va, 64, false, false, false, true, true⟩

/-- The effect of `DC IVAC` that completes: at EL1 with stage 2 enabled the line is cleaned too
(R416). -/
def State.doInvalidate (s : State) (m : Mapped) : State :=
  let b := blockOf (mappedKey m)
  (((s.asyncError (blockStart m) 64).healBlock b).record .disturbance).invalidateBlock b
    (s.el == 1 && s.hcrBelow 0)

/-- `DC IVAC, <Xt>` (R416): UNDEFINED at EL0, trapped by `HCR_EL2.TPCP` [23]. -/
def execDcIvac (rt : Reg) (s : State) : Out :=
  if s.el = 0 then .next s.undefined
  else if s.hcrBelow 23 then .next (s.trapDc 2 0 6 1 rt)
  else (s.access (ivacReq (s.xr rt)) .write).finish fun s1 m =>
    s1.advanceWith fun t => t.doInvalidate m

/-! Prefetch (R411) -/

/-- The hint is one of the allocated `prfop` values: a type and a target that exist (R272, R411). -/
def prefetchAllocated (prfop : BitVec 5) : Bool :=
  prfop.extractLsb' 3 2 != 3 && prfop.extractLsb' 1 2 != 3

/-- The effect of a prefetch: at most an allocation in the caches, with its PBHA value on the bus
(R173), and what its walk leaves there (R154, R175) without an entry in the TLBs (DESIGN CHOICE, log
entry 46); an address that does not translate without the update of a descriptor, or may not be
read, is not prefetched (R411). -/
def State.doPrefetch (s : State) (prfop : BitVec 5) (va : Word) : State :=
  if !prefetchAllocated prfop then s
  else match s.translateAhead va .read with
    | .ok s1 m =>
      let t := { s1 with tlb := s.tlb }
      if t.isCached m && (t.permissionFault m .read).isNone then
        { t.showPbha va m with cache := t.touchCaches (blockOf (mappedKey m)) false m.attr }
      else t
    | .fault s1 _ => s1
    | .refused _ => s

/-- A prefetch: only the SP alignment check can raise an exception (R411). Of any memory it stands
between the two of an exclusive pair (R379). -/
def State.prefetch (s : State) (prfop : BitVec 5) (spBase : Bool) (va : Word) : Out :=
  if spBase && s.spMisaligned then .next s.spAlignmentFault
  else s.advanceWith fun t => (t.doPrefetch prfop va).record .disturbance

/-- `PRFM <prfop>, [<Xn|SP>, #imm]` (R411, R272). -/
def execPrfmImm (prfop : BitVec 5) (rn : Reg) (imm12 : BitVec 12) (s : State) : Out :=
  s.prefetch prfop (rn == 31) (s.base rn + scaledOffset imm12)

/-- `PRFUM <prfop>, [<Xn|SP>, #imm]` (R411, R272). -/
def execPrfum (prfop : BitVec 5) (rn : Reg) (imm9 : BitVec 9) (s : State) : Out :=
  s.prefetch prfop (rn == 31) (s.base rn + unscaledOffset imm9)

/-- `PRFM <prfop>, [<Xn|SP>, <R>m, <extend>]` (R411, R272): an unallocated `option` is UNDEFINED. -/
def execPrfmReg (prfop : BitVec 5) (rn rm : Reg) (option : BitVec 3) (sh : BitVec 1)
    (s : State) : Out :=
  match s.extendedOffset rm option sh with
  | some off => s.prefetch prfop (rn == 31) (s.base rn + off)
  | none => .next s.undefined

/-- `PRFM <prfop>, <label>` (R411, R272). -/
def execPrfmLit (prfop : BitVec 5) (imm19 : BitVec 19) (s : State) : Out :=
  s.prefetch prfop false (s.pc + literalOffset imm19)

end Sys2Proof.Machine
end

