-- ==== Sys2Proof/Machine/Exclusive.lean ====
section
/-! DEFINITION. Load-Exclusive and Store-Exclusive (R370 to R395). -/

namespace Sys2Proof.Machine

/-- An exclusive access has a monitor: the core's for cached memory, the platform's for the rest,
where it supplies one (R379). -/
def State.hasMonitor (s : State) (m : Mapped) : Bool := s.isCached m || s.cfg.externalMonitor

/-- The value a load returns: memory's, or any value where the memory answers with an error that is
reported asynchronously (R163 (a)). -/
def State.loadValue (s : State) (m : Mapped) (n : Nat) : Data :=
  if s.busError m n then lowBytes n (s.drawWord .lostBits 0 ++ s.drawWord .lostBits 1)
  else s.loadData m n

/-- The effect of a Load-Exclusive that completes: the block is tagged, the caches looked up, the
read recorded with its ordering, an asynchronous error pended, and the value put in its registers by
`put` (R373, R380 to R387). -/
def State.doLoadExclusive (s : State) (m : Mapped) (n : Nat) (acq : Bool)
    (put : State → Data → State) : State :=
  let v := s.loadValue m n
  let s1 := ((s.asyncError m n).loaded m).record (.exclusiveRead (mappedKey m) n acq m.attr)
  put { s1 with monitor := .exclusive (tagOf m.pa) m.ns } v

/-- `LoadExcl`: `n` bytes in all (R380 and before). -/
def State.loadExclusive (s : State) (n : Nat) (acq : Bool) (rn : Reg)
    (put : State → Data → State) : Out :=
  let r := s.baseReq rn n true false
  (s.access r .read).finish fun s1 m =>
    if !s1.hasMonitor m then .refused .exclusiveMemoryType
    else if s1.isCached m && s1.busError m n then .next (s1.syncExternalAbort r)
    else s1.advanceWith fun t => t.doLoadExclusive m n acq put

/-- The Load-Exclusives of one register. -/
def loadExcl (sz : Size) (acq : Bool) (rt rn : Reg) (s : State) : Out :=
  s.loadExclusive sz.bytes acq rn (fun t v => t.setXData rt sz.bytes v)

/-- The bytes of one register of a pair form. -/
def pairBytes (wide : Bool) : Nat := if wide then 8 else 4

/-- The Load-Exclusive pairs; equal destinations are refused (R383, U12). -/
def loadExclPair (wide acq : Bool) (rt rt2 rn : Reg) (s : State) : Out :=
  if rt = rt2 then .refused .constrainedUnpredictable
  else s.loadExclusive (2 * pairBytes wide) acq rn
    (fun t v => t.setPair rt rt2 (pairBytes wide) v)

/-- The Store-Exclusive and its Load-Exclusive are a pair as R379 asks: no access, prefetch,
maintenance operation, system register write or exception between them, the same location, size and
memory attributes, Normal memory. Of the few instructions between them R379 gives no number: any
number counts as few (DESIGN CHOICE, log entry 33). -/
def State.cleanPair (s : State) (m : Mapped) (n : Nat) : Bool :=
  !m.attr.type.isDevice && (match s.events.getLast? with
    | some (.exclusiveRead key size _ attr) =>
      key == mappedKey m && size == n && attr == m.attr
    | _ => false)

/-- Whether a Store-Exclusive of `n` bytes stores: never with the monitor open; with another block
held it is free (R375, U10); with the block held it is free too, but a pair that obeys R379 fails
only a bounded number of times in a row (R374, D19; log entry 33). -/
def State.storePasses (s : State) (m : Mapped) (n : Nat) : Bool :=
  if s.monitor == .opened then false
  else if s.monitorHolds m.pa m.ns then
    (s.cleanPair m n && s.exclBudget == 0) || s.drawBool .storeExclPass 0
  else s.drawBool .storeExclOther 0

/-- How often a pair that obeys R379 may still fail, after this Store-Exclusive: one time less after
such a failure; any number after a success. -/
def State.budgetAfter (s : State) (m : Mapped) (n : Nat) : Nat :=
  if s.storePasses m n then s.drawNat .storeExclPass 1
  else if s.cleanPair m n then s.exclBudget - 1 else s.exclBudget

/-- The effect of a Store-Exclusive that completes: the store where it passes, the status, the
monitor open (R374, R375). -/
def State.doStoreExclusive (s : State) (m : Mapped) (n : Nat) (rel : Bool) (rs : Reg)
    (data : Data) : State :=
  let stored := ((s.asyncError m n).storeData m n data).record (.write (mappedKey m) n rel)
  let s1 := if s.storePasses m n then stored.setX rs 0 else s.setX rs 1
  { s1.openMonitor with exclBudget := s.budgetAfter m n }

/-- The end of a Store-Exclusive whose monitor check fails and that does not take the MMU fault of
its address: status 1, and a watchpoint still reported (R375, R391, R553). With no mapping to hold
against that of the Load-Exclusive it is no failure of a pair that obeys R379, and takes none of the
failures that R374 bounds (DESIGN CHOICE, log entry 33). -/
def State.failStoreExclusive (s : State) (r : Req) (rs : Reg) : Out :=
  if s.watchpointHit r then .next (s.watchpointTaken r)
  else s.advanceWith fun t => (t.setX rs 1).openMonitor

/-- The monitor check of a Store-Exclusive may fail: it does not pass at the address it maps to, or
there is no such address (R388 and after). -/
def State.checkFails (s : State) (r : Req) : Bool :=
  match s.translate r.va .write with
  | .ok s1 m => !s1.storePasses m r.size
  | _ => true

/-- `StoreExcl`: `n` bytes in all (R388 and before). Where the monitor check fails, whether an MMU
fault of the address is taken is free; the external abort of its walk is always reported
(R162). Where it is not taken the instruction goes on from the state before the walk, as if that had
not been made: what the walk shows on the bus and leaves in the caches is dropped, of which R175
says nothing (DESIGN CHOICE, log entry 33). -/
def State.storeExclusive (s : State) (n : Nat) (rel : Bool) (rs rn : Reg) (data : Data) : Out :=
  let r := s.baseReq rn n false true
  match s.access r .write with
  | .stop o => o
  | .mmu t =>
    if s.checkFails r && s.drawBool .storeExclFault 0 then s.failStoreExclusive r rs
    else .next t
  | .ok s1 m =>
    if !s1.hasMonitor m then .refused .exclusiveMemoryType
    else s1.advanceWith fun t => t.doStoreExclusive m n rel rs data

/-- The Store-Exclusives of one register; a status register that is also data or base is refused
(R388, U12). -/
def storeExcl (sz : Size) (rel : Bool) (rs rt rn : Reg) (s : State) : Out :=
  if rs = rt ∨ (rs = rn ∧ rn ≠ 31) then .refused .constrainedUnpredictable
  else s.storeExclusive sz.bytes rel rs rn (s.xData rt sz.bytes)

/-- The Store-Exclusive pairs (R391, R395, U12). -/
def storeExclPair (wide rel : Bool) (rs rt rt2 rn : Reg) (s : State) : Out :=
  if rs = rt ∨ rs = rt2 ∨ (rs = rn ∧ rn ≠ 31) then .refused .constrainedUnpredictable
  else s.storeExclusive (2 * pairBytes wide) rel rs rn (s.pairData rt rt2 (pairBytes wide))

/-! The instructions -/

/-- LDXRB, R380. -/
def execLdxrb (rt rn : Reg) (s : State) : Out :=
  loadExcl .byte false rt rn s

/-- LDXRH, R381. -/
def execLdxrh (rt rn : Reg) (s : State) : Out :=
  loadExcl .half false rt rn s

/-- LDXR (W), R382. -/
def execLdxrW (rt rn : Reg) (s : State) : Out :=
  loadExcl .word false rt rn s

/-- LDXR (X), R382. -/
def execLdxrX (rt rn : Reg) (s : State) : Out :=
  loadExcl .dword false rt rn s

/-- LDXP (W), R383. -/
def execLdxpW (rt rt2 rn : Reg) (s : State) : Out :=
  loadExclPair false false rt rt2 rn s

/-- LDXP (X), R383. -/
def execLdxpX (rt rt2 rn : Reg) (s : State) : Out :=
  loadExclPair true false rt rt2 rn s

/-- LDAXRB, R384. -/
def execLdaxrb (rt rn : Reg) (s : State) : Out :=
  loadExcl .byte true rt rn s

/-- LDAXRH, R385. -/
def execLdaxrh (rt rn : Reg) (s : State) : Out :=
  loadExcl .half true rt rn s

/-- LDAXR (W), R386. -/
def execLdaxrW (rt rn : Reg) (s : State) : Out :=
  loadExcl .word true rt rn s

/-- LDAXR (X), R386. -/
def execLdaxrX (rt rn : Reg) (s : State) : Out :=
  loadExcl .dword true rt rn s

/-- LDAXP (W), R387. -/
def execLdaxpW (rt rt2 rn : Reg) (s : State) : Out :=
  loadExclPair false true rt rt2 rn s

/-- LDAXP (X), R387. -/
def execLdaxpX (rt rt2 rn : Reg) (s : State) : Out :=
  loadExclPair true true rt rt2 rn s

/-- STXRB, R388. -/
def execStxrb (rs rt rn : Reg) (s : State) : Out :=
  storeExcl .byte false rs rt rn s

/-- STXRH, R389. -/
def execStxrh (rs rt rn : Reg) (s : State) : Out :=
  storeExcl .half false rs rt rn s

/-- STXR (W), R390. -/
def execStxrW (rs rt rn : Reg) (s : State) : Out :=
  storeExcl .word false rs rt rn s

/-- STXR (X), R390. -/
def execStxrX (rs rt rn : Reg) (s : State) : Out :=
  storeExcl .dword false rs rt rn s

/-- STXP (W), R391. -/
def execStxpW (rs rt rt2 rn : Reg) (s : State) : Out :=
  storeExclPair false false rs rt rt2 rn s

/-- STXP (X), R391. -/
def execStxpX (rs rt rt2 rn : Reg) (s : State) : Out :=
  storeExclPair true false rs rt rt2 rn s

/-- STLXRB, R392. -/
def execStlxrb (rs rt rn : Reg) (s : State) : Out :=
  storeExcl .byte true rs rt rn s

/-- STLXRH, R393. -/
def execStlxrh (rs rt rn : Reg) (s : State) : Out :=
  storeExcl .half true rs rt rn s

/-- STLXR (W), R394. -/
def execStlxrW (rs rt rn : Reg) (s : State) : Out :=
  storeExcl .word true rs rt rn s

/-- STLXR (X), R394. -/
def execStlxrX (rs rt rn : Reg) (s : State) : Out :=
  storeExcl .dword true rs rt rn s

/-- STLXP (W), R395. -/
def execStlxpW (rs rt rt2 rn : Reg) (s : State) : Out :=
  storeExclPair false true rs rt rt2 rn s

/-- STLXP (X), R395. -/
def execStlxpX (rs rt rt2 rn : Reg) (s : State) : Out :=
  storeExclPair true true rs rt rt2 rn s

end Sys2Proof.Machine
end

