-- ==== Sys2Proof/Machine/Interrupts.lean ====
section
/-! DEFINITION. Interrupts and SErrors: signalling by the GIC CPU interface, routing, masks, entry,
and the wake-up events of WFI and WFE (R307, R461, R466, R470 to R479, R501 to R503). -/

namespace Sys2Proof.Machine

/-! The GIC CPU interface (R479, R501 to R503; log entry 24) -/

/-- The banked registers of the interface are accessed in their Non-secure copies: in Non-secure
state, and at EL3 with `SCR_EL3.NS`. -/
def State.gicNs (s : State) : Bool := s.nsBelow

/-- The group of an interrupt is enabled (R502). -/
def State.groupEnabled (s : State) (g : IntGroup) : Bool :=
  match g with
  | .group0 => bit (s.ctl .icc_igrpen0_el1) 0
  | .group1Secure => bit (s.ctl .icc_igrpen1_el1) 0
  | .group1NonSecure => bit (s.ctl .icc_igrpen1_el1_ns) 0

/-- The group priority: the bits above the binary point (R479). -/
def State.groupPriority (s : State) (i : GicInt) : Nat :=
  match i.group with
  | .group0 => i.prio.toNat >>> (field (s.ctl .icc_bpr0_el1) 0 3 + 1)
  | .group1Secure => i.prio.toNat >>> field (s.ctl .icc_bpr1_el1) 0 3
  | .group1NonSecure => i.prio.toNat >>> field (s.ctl .icc_bpr1_el1_ns) 0 3

/-- The active interrupts as the interface sees them: until a context synchronisation event also
without the completions since the last one (R308, U13). -/
def State.activeSeen (s : State) : List GicInt :=
  s.choose .hazard 1000 s.gic.active s.gic.activeOld

/-- The interrupt may preempt every active one whose priority has not been dropped (R479). -/
def State.preempts (s : State) (i : GicInt) : Bool :=
  s.activeSeen.all fun a => a.dropped || s.groupPriority i < s.groupPriority a

/-- The interrupt has sufficient priority: above the mask `ICC_PMR_EL1` and the running priority
(R479). -/
def State.sufficient (s : State) (i : GicInt) : Bool :=
  s.groupEnabled i.group && i.prio.toNat < field (s.ctl .icc_pmr_el1) 0 8 && s.preempts i

/-- The interrupt of the highest priority among some, the first of equals. -/
def highest : List GicInt → Option GicInt
  | [] => none
  | i :: rest => match highest rest with
    | some j => if j.prio.toNat < i.prio.toNat then some j else some i
    | none => some i

/-- The interrupt the CPU interface signals. -/
def State.gicSignal (s : State) : Option GicInt := highest (s.gic.pending.filter s.sufficient)

/-- The interrupt is signalled as FIQ: Group 0, and Group 1 of the other Security state or at EL3
(R503). -/
def State.asFiq (s : State) (g : IntGroup) : Bool :=
  match g with
  | .group0 => true
  | .group1Secure => s.el == 3 || !s.secure
  | .group1NonSecure => s.el == 3 || s.secure

/-- A physical IRQ is pending for the core: from the CPU interface, or from the pin where the
interface is disabled (R470 (a)). -/
def State.physIrq (s : State) : Bool :=
  if s.gicDisabled then s.irq.irq
  else match s.gicSignal with
    | some i => !s.asFiq i.group
    | none => false

/-- A physical FIQ is pending for the core (R470 (a)). -/
def State.physFiq (s : State) : Bool :=
  if s.gicDisabled then s.irq.fiq
  else match s.gicSignal with
    | some i => s.asFiq i.group
    | none => false

/-! Virtual interrupts (R470 (b), R501, R590; the list registers and their layout log entry 24) -/

/-- The list registers. -/
def listRegs : List SysReg := [.ich_lr0_el2, .ich_lr1_el2, .ich_lr2_el2, .ich_lr3_el2]

/-- A list register: pending [62], active [63], Group 1 [60], priority [55:48], the identifier
[31:0]. -/
def lrPending (w : Word) : Bool := bit w 62
def lrActive (w : Word) : Bool := bit w 63
def lrGroup1 (w : Word) : Bool := bit w 60
def lrPriority (w : Word) : Nat := field w 48 8
def lrId (w : Word) : Nat := field w 0 32

/-- The virtual group is enabled: `ICH_VMCR_EL2.VENG1` [1] and `VENG0` [0]. -/
def State.virtGroupEnabled (s : State) (group1 : Bool) : Bool :=
  bit (s.ctl .ich_vmcr_el2) (if group1 then 1 else 0)

/-- The group priority of a virtual interrupt, above the binary point `VBPR1` [20:18] or `VBPR0`
[23:21], as a priority. -/
def State.virtGroupPriority (s : State) (w : Word) : Nat :=
  let n := if lrGroup1 w then field (s.ctl .ich_vmcr_el2) 18 3
    else field (s.ctl .ich_vmcr_el2) 21 3 + 1
  (lrPriority w >>> n) <<< n

/-- The bit of the active priorities registers for a priority. -/
def priorityBit (prio : Nat) : Nat := prio / 8

/-- No virtual interrupt of this or a higher priority is active: the active priorities are those of
`ICH_AP0R0_EL2` and `ICH_AP1R0_EL2`. -/
def State.virtPreempts (s : State) (w : Word) : Bool :=
  (List.range (priorityBit (s.virtGroupPriority w) + 1)).all fun i =>
    !bit (s.ctl .ich_ap0r0_el2 ||| s.ctl .ich_ap1r0_el2) i

/-- The list register holds a virtual interrupt that can be signalled: pending, its group enabled,
its priority above the mask `VPMR` [31:24] and the active priorities. -/
def State.virtSufficient (s : State) (w : Word) : Bool :=
  lrPending w && s.virtGroupEnabled (lrGroup1 w) &&
    lrPriority w < field (s.ctl .ich_vmcr_el2) 24 8 && s.virtPreempts w

/-- The list register of the highest priority among some, the first of equals. -/
def State.highestVirt (s : State) : List SysReg → Option SysReg
  | [] => none
  | r :: rest => match s.highestVirt rest with
    | some q => if lrPriority (s.ctl q) < lrPriority (s.ctl r) then some q else some r
    | none => some r

/-- The virtual interrupt the CPU interface signals: the interface enabled, `ICH_HCR_EL2.En` [0]
set. -/
def State.virtSignal (s : State) : Option SysReg :=
  if !s.gicDisabled && bit (s.ctl .ich_hcr_el2) 0 then
    s.highestVirt (listRegs.filter fun r => s.virtSufficient (s.ctl r))
  else none

/-- The CPU interface signals a virtual interrupt of the group: IRQ for Group 1, FIQ for Group 0. -/
def State.virtLine (s : State) (group1 : Bool) : Bool :=
  match s.virtSignal with
  | some r => lrGroup1 (s.ctl r) == group1
  | none => false

/-! Pending asynchronous exceptions (R466, R472) -/

/-- The kinds of asynchronous exception. -/
inductive AsyncKind where
  | irq
  | fiq
  | serror
  | virq
  | vfiq
  | vserror
  deriving DecidableEq, Repr

def AsyncKind.isVirtual (k : AsyncKind) : Bool :=
  match k with
  | .virq | .vfiq | .vserror => true
  | .irq | .fiq | .serror => false

/-- The routing bit in `HCR_EL2`: `IMO` [4], `FMO` [3], `AMO` [5] (places PRESUMED, log entry 12).
-/
def AsyncKind.hcrBit (k : AsyncKind) : Nat :=
  match k with
  | .irq | .virq => 4
  | .fiq | .vfiq => 3
  | .serror | .vserror => 5

/-- The routing bit in `SCR_EL3`: `IRQ` [1], `FIQ` [2], `EA` [3] (R71). -/
def AsyncKind.scrBit (k : AsyncKind) : Nat :=
  match k with
  | .irq | .virq => 1
  | .fiq | .vfiq => 2
  | .serror | .vserror => 3

/-- The mask bit of PSTATE (R472). -/
def AsyncKind.mask (k : AsyncKind) (p : PState) : Bool :=
  match k with
  | .irq | .virq => p.i
  | .fiq | .vfiq => p.f
  | .serror | .vserror => p.a

/-- Virtual interrupts of this kind are enabled for the current level (R466 (f)). -/
def State.virtEnabled (s : State) (k : AsyncKind) : Bool := s.hcrBelow k.hcrBit && !s.tge

/-- The exception is pending: the lines, the virtual lines of the CPU interface or the pins where
it is disabled, the pending SError, `HCR_EL2.VSE` [8] (R470). -/
def State.isPending (s : State) (k : AsyncKind) : Bool :=
  match k with
  | .irq => s.physIrq
  | .fiq => s.physFiq
  | .serror => s.irq.serror.isSome
  | .virq => (if s.gicDisabled then s.irq.virq else s.virtLine true) && s.virtEnabled .virq
  | .vfiq => (if s.gicDisabled then s.irq.vfiq else s.virtLine false) && s.virtEnabled .vfiq
  | .vserror => bit s.hcr 8 && s.virtEnabled .vserror

/-- The target level: of a physical one EL3, EL2 or EL1 by `SCR_EL3`, `HCR_EL2` and `TGE`; of a
virtual one EL1 (R466 (e), (f)). -/
def State.asyncTarget (s : State) (k : AsyncKind) : EL :=
  if k.isVirtual then 1
  else if bit s.scr k.scrBit then 3
  else if s.el ≤ 2 && s.el2Enabled && (bit s.hcr k.hcrBit || s.tge) then 2
  else 1

/-- It can be taken now: the target is higher than the current level, or the same with the mask
clear (R472). -/
def State.takeable (s : State) (k : AsyncKind) : Bool :=
  s.el < s.asyncTarget k || (s.el == s.asyncTarget k && !k.mask s.pstate)

/-- It is masked: the target is the current level and the mask is set (R472). -/
def State.masked (s : State) (k : AsyncKind) : Bool :=
  s.el == s.asyncTarget k && k.mask s.pstate

def allAsync : List AsyncKind := [.irq, .fiq, .serror, .virq, .vfiq, .vserror]

/-- The exceptions that can be taken before the next instruction. A physical SError may still be on
its way for any number of instructions, until an exception entry has synchronised it (R477). -/
def State.takeableNow (s : State) : List AsyncKind :=
  allAsync.filter fun k => s.isPending k && s.takeable k &&
    !(k == .serror && !s.irq.due && s.drawBool .serrorDelay 0)

/-- The pending physical SError is consumed. -/
def State.consumed (s : State) : State :=
  { s with irq := { s.irq with serror := none, due := false } }

/-- Takes an asynchronous exception with return address `ret`: IRQ and FIQ write no syndrome; an
SError is consumed and records its own, with `IESB` [13] where an exception entry has synchronised
it, a virtual one that of `VSESR_EL2` (R461, R464, R474 to R476). -/
def State.takeAsync (s : State) (k : AsyncKind) (ret : Word) : State :=
  let t := s.asyncTarget k
  match k with
  | .irq | .virq => s.takeException ⟨t, .irq, ret, none, .unknown, none⟩
  | .fiq | .vfiq => s.takeException ⟨t, .fiq, ret, none, .unknown, none⟩
  | .serror =>
    s.consumed.takeException
      ⟨t, .serror, ret, some (esrWord 0x2F (s.irq.serror.getD 0 ||| (if s.irq.due then 0x2000 else 0))),
        .keep, none⟩
  | .vserror =>
    s.clearVse.takeException
      ⟨t, .serror, ret, some (esrWord 0x2F ((s.ctl .vsesr_el2).setWidth 25)), .keep, none⟩

/-- `ISR_EL1`: `A` [8], `I` [7], `F` [6], of the virtual interrupts where they are enabled at EL1,
else of the physical ones (R472). -/
def State.isr (s : State) : Word :=
  let shown (v p : AsyncKind) : Bool := if s.virtEnabled v then s.isPending v else s.isPending p
  flagAt (shown .vserror .serror) 8 ||| flagAt (shown .virq .irq) 7 |||
    flagAt (shown .vfiq .fiq) 6

/-! Wake-up events (R307, R478, D15) -/

/-- A debug halt request that the core may obey is pending (R307 (a), R555). -/
def State.haltPending (s : State) : Bool := s.dbg.request && s.haltingAllowed

/-- A WFI wake-up event is pending: a physical interrupt or SError whatever the masks, a virtual one
enabled for the current level, a debug halt request (R307 (a), D15). -/
def State.wfiWakes (s : State) : Bool := allAsync.any s.isPending || s.haltPending

/-- A WFE wake-up event is pending: one of WFI's that is not masked, or the event register (R307
(b)). -/
def State.wfeWakes (s : State) : Bool :=
  s.eventReg || s.haltPending || allAsync.any fun k => s.isPending k && !s.masked k

/-- The sleeping core wakes now, by an event or spuriously (D15); never when WFI has masked the
wake-up events (R304). -/
def State.wakes (s : State) : Bool :=
  !s.sleep.wakeMasked && (match s.sleep.lowPower with
    | .running => false
    | .wfi => s.wfiWakes || s.drawBool .spuriousWake 0
    | .wfe => s.wfeWakes || s.drawBool .spuriousWake 0)

end Sys2Proof.Machine
end

