-- ==== Sys2Proof/Machine/GicRegs.lean ====
section
/-! DEFINITION. The registers of the GIC CPU interface: acknowledge and completion of physical and
of virtual interrupts, the copies of the two Security states, and the views of the virtual interface
(R69, R470, R479, R501 to R505; what the spec does not give is log entry 24). -/

namespace Sys2Proof.Machine

/-- A register with a field replaced. -/
def putField (w : Word) (lo len v : Nat) : Word :=
  (w &&& ~~~(BitVec.ofNat 64 (2 ^ len - 1) <<< lo)) ||| (BitVec.ofNat 64 (v % 2 ^ len) <<< lo)

/-! The physical interface (R479, R501, R502) -/

/-- A Group 1 interrupt is of the group that the acknowledge register of Group 1 serves at this
level: that of the Security state, and either at EL3. -/
def State.ownGroup1 (s : State) (g : IntGroup) : Bool :=
  match g with
  | .group0 => false
  | .group1Secure => s.secure
  | .group1NonSecure => s.el == 3 || !s.secure

/-- The interrupt is of the group of an acknowledge or completion register. -/
def State.ofRegister (s : State) (g0 : Bool) (i : GicInt) : Bool :=
  if g0 then i.group == .group0 else s.ownGroup1 i.group

/-- The highest-priority pending interrupt of the group, where its priority is sufficient: what a
read of the acknowledge register takes (R479). -/
def State.acknowledges (s : State) (g0 : Bool) : Option GicInt :=
  highest (s.gic.pending.filter fun i => s.ofRegister g0 i && s.sufficient i)

/-- The identifier of an interrupt; 1023 is spurious (R479). -/
def intId (i : Option GicInt) : Word :=
  match i with
  | some i => i.id.setWidth 64
  | none => 1023

/-- The CPU interface after an acknowledge (R479). -/
def State.acknowledge (s : State) (g0 : Bool) : State :=
  match s.acknowledges g0 with
  | some i => { s with gic := { s.gic with
      pending := s.gic.pending.filter (· != i), active := i :: s.gic.active } }
  | none => s

/-- The highest-priority pending interrupt of the group, enabled, whatever its priority. -/
def State.highestPending (s : State) (g0 : Bool) : Option GicInt :=
  highest (s.gic.pending.filter fun i => s.ofRegister g0 i && s.groupEnabled i.group)

/-- `EOImode`: of `ICC_CTLR_EL3` [2] at EL3, else of `ICC_CTLR_EL1` [1] of the Security state
(R479). -/
def State.eoiMode (s : State) : Bool :=
  if s.el = 3 then bit (s.ctl .icc_ctlr_el3) 2
  else bit (if s.gicNs then s.ctl .icc_ctlr_el1_ns else s.ctl .icc_ctlr_el1) 1

/-- The active interrupts without one. -/
def deactivate (l : List GicInt) (id : BitVec 24) : List GicInt := l.filter (·.id != id)

/-- A completion: the active interrupts become others, of which later instructions may see either
until a context synchronisation event (R308, U13). -/
def State.putActive (s : State) (l : List GicInt) : State :=
  { s with gic := { s.gic with active := l, activeOld := s.gic.active :: s.gic.activeOld } }

/-- A write of an end-of-interrupt register: the priority of the active interrupt is dropped, and it
is deactivated unless `EOImode` (R479). -/
def State.endInterrupt (s : State) (g0 : Bool) (w : Word) : State :=
  let hit (i : GicInt) : Bool := i.id == w.setWidth 24 && s.ofRegister g0 i
  s.putActive (if s.eoiMode then
      s.gic.active.map fun i => if hit i then { i with dropped := true } else i
    else s.gic.active.filter fun i => !hit i)

/-- An active interrupt whose priority has not been dropped counts for the active priorities of its
group. -/
def countsActive (g0 : Bool) (i : GicInt) : Bool := !i.dropped && (i.group == .group0) == g0

/-- `ICC_AP0R0_EL1` and `ICC_AP1R0_EL1`: a bit for each active priority. -/
def State.activePriorities (s : State) (g0 : Bool) : Word :=
  s.activeSeen.foldl (fun w i =>
    if countsActive g0 i then withBit w (priorityBit i.prio.toNat) true else w) 0

/-- A write of an active priorities register drops the priorities it does not name. -/
def State.writeActivePriorities (s : State) (g0 : Bool) (w : Word) : State :=
  let dropped (i : GicInt) : GicInt :=
    if countsActive g0 i && !bit w (priorityBit i.prio.toNat) then { i with dropped := true } else i
  s.putActive (s.gic.active.map dropped)

/-- The running priority: the highest of the active ones, 0xFF with none (R479). -/
def State.runningPriority (s : State) : Word :=
  (s.activeSeen.filter (!·.dropped)).foldl (fun w i =>
    if i.prio.toNat < w.toNat then i.prio.setWidth 64 else w) 0xFF

/-! The virtual interface (R470 (b), R501, R590) -/

/-- At EL1 an access to a register of the interface is one of the virtual interface, where `FMO` or
`IMO` has virtual interrupts of its group enabled. -/
def State.virtualAccess (s : State) (r : SysReg) : Bool :=
  match r with
  | .icc_iar0_el1 | .icc_eoir0_el1 | .icc_bpr0_el1 | .icc_igrpen0_el1 | .icc_hppir0_el1
  | .icc_ap0r0_el1 => s.virtEnabled .vfiq
  | .icc_iar1_el1 | .icc_eoir1_el1 | .icc_bpr1_el1 | .icc_igrpen1_el1 | .icc_hppir1_el1
  | .icc_ap1r0_el1 => s.virtEnabled .virq
  | .icc_pmr_el1 | .icc_ctlr_el1 | .icc_dir_el1 | .icc_rpr_el1 =>
    s.virtEnabled .virq || s.virtEnabled .vfiq
  | _ => false

/-- The list register that an acknowledge of the virtual group takes. -/
def State.virtAcknowledges (s : State) (g0 : Bool) : Option SysReg :=
  s.highestVirt (listRegs.filter fun r =>
    lrGroup1 (s.ctl r) == !g0 && s.virtSufficient (s.ctl r))

/-- The list register of the highest pending priority of the virtual group. -/
def State.virtHighestPending (s : State) (g0 : Bool) : Option SysReg :=
  s.highestVirt (listRegs.filter fun r =>
    lrPending (s.ctl r) && lrGroup1 (s.ctl r) == !g0 && s.virtGroupEnabled (!g0))

/-- The identifier in a list register; 1023 is spurious. -/
def State.virtId (s : State) (r : Option SysReg) : Word :=
  match r with
  | some r => BitVec.ofNat 64 (lrId (s.ctl r))
  | none => 1023

/-- The active priorities register of a virtual group. -/
def virtActive (g0 : Bool) : SysReg := if g0 then .ich_ap0r0_el2 else .ich_ap1r0_el2

/-- The virtual interface after an acknowledge: the interrupt goes from pending to active and its
priority becomes active. -/
def State.virtAcknowledge (s : State) (g0 : Bool) : State :=
  match s.virtAcknowledges g0 with
  | some r =>
    (s.putByUnit r fun w => withBit (withBit w 62 false) 63 true).putByUnit (virtActive g0) fun w =>
      withBit w (priorityBit (s.virtGroupPriority (s.get r))) true
  | none => s

/-- A list register deactivated; a virtual interrupt with `HW` [61] deactivates the physical one of
`pINTID` [44:32] too. -/
def State.virtDeactivate (s : State) (r : SysReg) : State :=
  let w := s.get r
  let s1 := s.putControl r (withBit w 63 false)
  if bit w 61 then s1.putActive (deactivate s.gic.active (BitVec.ofNat 24 (field w 32 13))) else s1

/-- The active list register with an identifier, among those of a kind. -/
def State.virtFind (s : State) (id : Word) (among : Word → Bool) : Option SysReg :=
  listRegs.find? fun r =>
    lrActive (s.ctl r) && lrId (s.ctl r) == field id 0 24 && among (s.ctl r)

/-- The lowest bit that is set, cleared: the highest active priority is dropped. -/
def dropPriority (w : Word) : Word := w &&& (w - 1)

/-- A virtual end of interrupt: the highest active priority of the group is dropped, which a read of
`ICC_AP0R0_EL1` or `ICC_AP1R0_EL1` sees for sure only after a context synchronisation event (R308);
and the interrupt is deactivated unless `ICH_VMCR_EL2.VEOIM` [9]. -/
def State.virtEnd (s : State) (g0 : Bool) (w : Word) : State :=
  let s1 := s.putThrough (virtActive g0) (some (if g0 then .icc_eoir0_el1 else .icc_eoir1_el1))
    (dropPriority (s.get (virtActive g0)))
  if bit (s.ctl .ich_vmcr_el2) 9 then s1
  else match s.virtFind w fun l => lrGroup1 l == !g0 with
    | some r => s1.virtDeactivate r
    | none => s1

/-- The running priority of the virtual interface. -/
def State.virtRunning (s : State) : Word :=
  match (List.range 32).find? (bit (s.ctl .ich_ap0r0_el2 ||| s.ctl .ich_ap1r0_el2)) with
  | some i => BitVec.ofNat 64 (8 * i)
  | none => 0xFF

/-- A read of the virtual interface: its fields in `ICH_VMCR_EL2`, `VPMR` [31:24], `VBPR0` [23:21],
`VBPR1` [20:18], `VEOIM` [9], `VCBPR` [4], `VENG1` [1], `VENG0` [0], and its list registers. -/
def State.readVirtual (s : State) (r : SysReg) : Word :=
  let f (lo len : Nat) : Word := BitVec.ofNat 64 (field (s.get .ich_vmcr_el2) lo len)
  match r with
  | .icc_iar0_el1 => s.virtId (s.virtAcknowledges true)
  | .icc_iar1_el1 => s.virtId (s.virtAcknowledges false)
  | .icc_hppir0_el1 => s.virtId (s.virtHighestPending true)
  | .icc_hppir1_el1 => s.virtId (s.virtHighestPending false)
  | .icc_pmr_el1 => f 24 8
  | .icc_bpr0_el1 => f 21 3
  | .icc_bpr1_el1 => f 18 3
  | .icc_igrpen0_el1 => f 0 1
  | .icc_igrpen1_el1 => f 1 1
  | .icc_ctlr_el1 => f 4 1 ||| (f 9 1 <<< 1)
  | .icc_ap0r0_el1 => s.seenAs r .ich_ap0r0_el2
  | .icc_ap1r0_el1 => s.seenAs r .ich_ap1r0_el2
  | .icc_rpr_el1 => s.virtRunning
  | _ => 0

/-- A write of the virtual interface. -/
def State.writeVirtual (s : State) (r : SysReg) (w : Word) : State :=
  let set (lo len v : Nat) : State :=
    s.putControl .ich_vmcr_el2 (putField (s.get .ich_vmcr_el2) lo len v)
  match r with
  | .icc_eoir0_el1 => s.virtEnd true w
  | .icc_eoir1_el1 => s.virtEnd false w
  | .icc_dir_el1 => match s.virtFind w fun _ => true with
    | some l => s.virtDeactivate l
    | none => s
  | .icc_pmr_el1 => set 24 8 w.toNat
  | .icc_bpr0_el1 => set 21 3 w.toNat
  | .icc_bpr1_el1 => set 18 3 w.toNat
  | .icc_igrpen0_el1 => set 0 1 w.toNat
  | .icc_igrpen1_el1 => set 1 1 w.toNat
  | .icc_ctlr_el1 => s.putControl .ich_vmcr_el2
      (putField (putField (s.get .ich_vmcr_el2) 4 1 w.toNat) 9 1 (w.toNat >>> 1))
  | .icc_ap0r0_el1 => s.putThrough .ich_ap0r0_el2 (some r) (w &&& 0xFFFFFFFF)
  | .icc_ap1r0_el1 => s.putThrough .ich_ap1r0_el2 (some r) (w &&& 0xFFFFFFFF)
  | _ => s

/-! The views for the hypervisor -/

/-- A word of bits, one for each list register that passes a test. -/
def State.listBits (s : State) (p : Word → Bool) : Word :=
  flagAt (p (s.ctl .ich_lr0_el2)) 0 ||| flagAt (p (s.ctl .ich_lr1_el2)) 1 |||
    flagAt (p (s.ctl .ich_lr2_el2)) 2 ||| flagAt (p (s.ctl .ich_lr3_el2)) 3

/-- `ICH_EISR_EL2`: list registers whose interrupt has ended and asks for maintenance, `EOI` [41].
-/
def State.endedLists (s : State) : Word :=
  s.listBits fun w => !lrPending w && !lrActive w && !bit w 61 && bit w 41

/-- `ICH_ELRSR_EL2`: list registers that are free. -/
def State.freeLists (s : State) : Word :=
  s.listBits fun w => !lrPending w && !lrActive w && (bit w 61 || !bit w 41)

/-- `ICH_MISR_EL2`: the conditions of the maintenance interrupt, each with its enable in
`ICH_HCR_EL2`. -/
def State.maintenance (s : State) : Word :=
  let h := s.ctl .ich_hcr_el2
  let v := s.ctl .ich_vmcr_el2
  let valid := (listRegs.filter fun r => lrPending (s.ctl r) || lrActive (s.ctl r)).length
  flagAt (s.endedLists != 0) 0 ||| flagAt (bit h 1 && valid ≤ 1) 1 |||
  flagAt (bit h 2 && field h 27 5 != 0) 2 |||
  flagAt (bit h 3 && listRegs.all fun r => !lrPending (s.ctl r)) 3 |||
  flagAt (bit h 4 && bit v 0) 4 ||| flagAt (bit h 5 && !bit v 0) 5 |||
  flagAt (bit h 6 && bit v 1) 6 ||| flagAt (bit h 7 && !bit v 1) 7

/-! Reading and writing -/

/-- The copy of a banked register that an access reaches: the Non-secure one (R501; log entry 24).
-/
def State.banked (s : State) (r : SysReg) : SysReg :=
  if s.gicNs then
    match r with
    | .icc_igrpen1_el1 => .icc_igrpen1_el1_ns
    | .icc_bpr1_el1 => .icc_bpr1_el1_ns
    | .icc_ctlr_el1 => .icc_ctlr_el1_ns
    | _ => r
  else r

/-- The value of a register of the interface. -/
def State.readGic (s : State) (r : SysReg) : Word :=
  if s.virtualAccess r then s.readVirtual r
  else match r with
    | .icc_iar0_el1 => intId (s.acknowledges true)
    | .icc_iar1_el1 => intId (s.acknowledges false)
    | .icc_hppir0_el1 => intId (s.highestPending true)
    | .icc_hppir1_el1 => intId (s.highestPending false)
    | .icc_rpr_el1 => s.runningPriority
    | .icc_ap0r0_el1 => s.activePriorities true
    | .icc_ap1r0_el1 => s.activePriorities false
    | .icc_igrpen1_el1 | .icc_bpr1_el1 | .icc_ctlr_el1 => s.get (s.banked r)
    | .ich_ap0r0_el2 | .ich_ap1r0_el2 => s.seenAs r r
    | .ich_vtr_el2 => (Config.idValue r &&& ~~~0x1F#64) ||| 3
    | .ich_misr_el2 => s.maintenance
    | .ich_eisr_el2 => s.endedLists
    | .ich_elrsr_el2 => s.freeLists
    | _ => s.get r

/-- What reading a register of the interface changes: an acknowledge (R479). -/
def State.afterGicRead (s : State) (r : SysReg) : State :=
  match r with
  | .icc_iar0_el1 => if s.virtualAccess r then s.virtAcknowledge true else s.acknowledge true
  | .icc_iar1_el1 => if s.virtualAccess r then s.virtAcknowledge false else s.acknowledge false
  | _ => s

/-- A write of a register of the interface. A software generated interrupt is sent to the
Distributor (R505). -/
def State.writeGic (s : State) (r : SysReg) (w : Word) : State :=
  if s.virtualAccess r then s.writeVirtual r w
  else match r with
    | .icc_eoir0_el1 => s.endInterrupt true w
    | .icc_eoir1_el1 => s.endInterrupt false w
    | .icc_dir_el1 => s.putActive (deactivate s.gic.active (w.setWidth 24))
    | .icc_sgi0r_el1 | .icc_sgi1r_el1 | .icc_asgi1r_el1 =>
      { s with gic := { s.gic with sgis := (r, w) :: s.gic.sgis } }
    | .icc_ap0r0_el1 => s.writeActivePriorities true w
    | .icc_ap1r0_el1 => s.writeActivePriorities false w
    | .icc_igrpen0_el1 => s.putControl r (w &&& 1)
    | .icc_igrpen1_el1 => s.putControl (s.banked r) (w &&& 1)
    | .icc_bpr1_el1 | .icc_ctlr_el1 => s.putControl (s.banked r) w
    | _ => s.putControl r w

end Sys2Proof.Machine
end

