-- ==== Sys2Proof/Machine/Counters.lean ====
section
/-! DEFINITION. The counters that run between two instructions: the system counter, the PMU and AMU
counters, the trace unit's counters and inputs (R91, R508, R509, R530 to R534, R546 to R548, R566;
D11). How far a counter comes is free. -/

namespace Sys2Proof.Machine

/-- The core is operational: in the On mode, not in retention and not off (R573, R577, R578). -/
def State.isOn (s : State) : Bool := s.power == .on

/-- A value not below `v`, free: how far a counter has come. -/
def State.notBelow (s : State) (v : Word) (i : Nat) : Word :=
  BitVec.ofNat 64 (v.toNat + s.drawNat .counter i % (2 ^ 64 - v.toNat))

/-- The PMU counters with their enable bits: the cycle counter is 31 (R530). -/
def pmuCounters : List (SysReg × Nat) := (.pmccntr_el0, 31) :: pmevcntrs.zipIdx

/-- A PMU counter counts: `PMCR_EL0.E` and its enable; event counters not in Secure state without
`MDCR_EL3.SPME` [17], as it is when the event occurs (R531, R533; places PRESUMED, log entry 26). -/
def State.pmuCounts (s : State) (n : Nat) : Bool :=
  bit (s.ctl .pmcr_el0) 0 && bit (s.ctl .pmcntenset_el0) n &&
    (n == 31 || (n < s.cfg.pmuCounters.count && (!s.secure || bit (s.ctl .mdcr_el3) 17)))

/-- The PMU counters come further while they count, and may overflow (R531, R534). -/
def State.countPmu (s : State) : State :=
  pmuCounters.foldl (fun t p =>
    if s.pmuCounts p.2 then
      (t.putByUnit p.1 fun v => s.notBelow v (100 + p.2)).putByUnit .pmovsset_el0 fun v =>
        v ||| flagAt (s.drawBool .counter (200 + p.2)) p.2
    else t) s

/-- The AMU counters with the registers and bits of their enables (R546). -/
def amuCounters : List (SysReg × SysReg × Nat) :=
  [(.amevcntr00_el0, .amcntenset0_el0, 0), (.amevcntr01_el0, .amcntenset0_el0, 1),
   (.amevcntr02_el0, .amcntenset0_el0, 2), (.amevcntr03_el0, .amcntenset0_el0, 3),
   (.amevcntr10_el0, .amcntenset1_el0, 0), (.amevcntr11_el0, .amcntenset1_el0, 1),
   (.amevcntr12_el0, .amcntenset1_el0, 2)]

/-- An AMU counter that has come further: not below what it was, but that one at its last value may
wrap to 0 (R547, R652). -/
def State.advanceAmu (s : State) (v : Word) (i : Nat) : Word :=
  if v = BitVec.allOnes 64 && s.drawBool .counter i then 0 else s.notBelow v i

/-- The AMU counters advance while they are enabled (R547). -/
def State.countAmu (s : State) : State :=
  amuCounters.foldl (fun t p =>
    if bit (s.ctl p.2.1) p.2.2 then
      t.putByUnit p.1 fun v => s.advanceAmu v (300 + p.1.idx.val)
    else t) s

/-! The trace unit's resources (R563, R566; the selections are log entry 41) -/

/-- The resource that an event of the trace unit selects in its byte of `TRCEVENTCTL0R`: 0 to 3 an
extended input, 4 and 5 a counter, 8 to 15 a comparator. -/
def traceResource (sel : Nat) : TraceResource :=
  if sel < 4 then .input (Fin.ofNat 4 sel)
  else if sel < 6 then .counter (sel == 5)
  else if 8 ≤ sel && sel < 16 then .comparator (Fin.ofNat 8 (sel - 8))
  else .none

/-- A resource is active: its input, its counter at zero, its comparator matching. -/
def State.resourceActive (s : State) (r : TraceResource) : Bool :=
  match r with
  | .none => false
  | .input i => s.trace.inputs.getLsbD i.val
  | .counter second => s.get (if second then .trccntvr1 else .trccntvr0) == 0
  | .comparator i => s.trace.comparators.getLsbD i.val

/-- An event of the trace unit occurs: the resource its event register selects is active (R566). -/
def State.traceEvent (s : State) (i : Nat) : Bool :=
  s.resourceActive (traceResource (field (s.ctl .trceventctl0r) (8 * i) 8))

/-- The external outputs are the four events, and the trigger to the Trace Capture Device is the
first of them (R560, R563). -/
def State.traceOutputs (s : State) : State :=
  { s with trace := { s.trace with
      outputs := BitVec.ofBool (s.traceEvent 3) ++ BitVec.ofBool (s.traceEvent 2) ++
        BitVec.ofBool (s.traceEvent 1) ++ BitVec.ofBool (s.traceEvent 0)
      trigger := s.traceEvent 0 } }

/-- The trace unit's counters run, its extended inputs are active or not, as their events occur, and
its comparators match or not (R563, R566). -/
def State.countTrace (s : State) : State :=
  let t := (s.putByUnit .trccntvr0 fun _ => s.drawWord .trace 2).putByUnit .trccntvr1 fun _ =>
    s.drawWord .trace 3
  State.traceOutputs { t with trace := { s.trace with
    inputs := (s.drawWord .trace 1).setWidth 4
    comparators := (s.drawWord .trace 6).setWidth 8 } }

/-- Every counter that runs comes further: the system counter always, those of the core while it is
on, which it is not in retention nor in an off mode (R573, R577, R578). While `TRCPRGCTLR.EN` is
clear the external outputs and the trigger of the trace unit keep their last values, of which R563
says nothing (DESIGN CHOICE, log entry 41). -/
def State.count (s : State) : State :=
  let s1 := { s with sysCount := s.notBelow s.sysCount 0 }
  let s2 := if s.isOn && bit (s.ctl .pmcr_el0) 0 then s1.countPmu else s1
  let s3 := if s.isOn && s.ctl .amcntenset0_el0 ||| s.ctl .amcntenset1_el0 != 0 then s2.countAmu
    else s2
  if s.isOn && s.traceOn then s3.countTrace else s3

/-- The number of the event MEMORY_ERROR (R491, R532). -/
def memoryError : Nat := 0x1A

/-- A PMU event counter with its number is one further; one that wraps sets its bit of the overflow
status (R534). -/
def State.bumpPmu (s : State) (r : SysReg) (n : Nat) : State :=
  let s1 := s.putByUnit r (· + 1)
  if s.get r + 1 = 0 then s1.putByUnit .pmovsset_el0 (· ||| flagAt true n) else s1

/-- MEMORY_ERROR occurs: the counters that select it and count are one further (R491, R533), and so
are the trace inputs whose selectors select it active, with the outputs that they drive (R566). -/
def State.countMemoryError (s : State) : State :=
  let t := (pmevcntrs.zip pmevtypers).zipIdx.foldl (fun t p =>
    if s.pmuCounts p.2 && field (s.ctl p.1.2) 0 16 == memoryError then t.bumpPmu p.1.1 p.2
    else t) s
  let selects (r : SysReg) : Bool := s.traceOn && field (s.ctl r) 0 16 == memoryError
  let active : BitVec 4 :=
    BitVec.ofBool (selects .trcextinselr3) ++ BitVec.ofBool (selects .trcextinselr2) ++
      BitVec.ofBool (selects .trcextinselr1) ++ BitVec.ofBool (selects .trcextinselr0)
  if s.traceOn then
    State.traceOutputs { t with trace := { s.trace with inputs := s.trace.inputs ||| active } }
  else t

end Sys2Proof.Machine
end

