-- ==== Sys2Proof/Machine/Ras.lean ====
section
/-! DEFINITION. The error record of node 1, its two interrupt outputs, error injection, the errors
that evictions meet and RAM errors of the environment (R480 to R495). The bit places of the record
are those of the RAS architecture (PRESUMED, log entry 25). -/

namespace Sys2Proof.Machine

/-- The record selected by `ERRSELR_EL1` is this core's (D23). -/
def State.ownRecord (s : State) : Bool := field (s.ctl .errselr_el1) 0 16 == 1

/-- The status bits an error sets: V with CE, DE or UE (R495). -/
def errStatusBits (k : ErrorKind) : Word :=
  flagAt true 30 ||| (match k with
    | .corrected => flagAt true 24
    | .deferred => flagAt true 23
    | .uncorrected | .uncontainable => flagAt true 29)

/-- `ERR1MISC0` after a corrected error: one of its two counters, [38:32] and [46:40], incremented,
its overflow bit [39] or [47] sticky (R483, R495). -/
def countCorrected (w : Word) (second : Bool) : Word :=
  let lo := if second then 40 else 32
  let n := field w lo 7 + 1
  let w1 := (w &&& ~~~(0x7F#64 <<< lo)) ||| (BitVec.ofNat 64 (n % 128) <<< lo)
  if n = 128 then withBit w1 (lo + 7) true else w1

/-- An overflow bit of a corrected error counter is set in one of `ERR1MISC0` to `ERR1MISC3`
(R483). -/
def State.correctedOverflow (s : State) : Bool :=
  [SysReg.erxmisc0_el1, .erxmisc1_el1, .erxmisc2_el1, .erxmisc3_el1].any fun r =>
    bit (s.ctl r) 39 || bit (s.ctl r) 47

/-- An error raises the Fault Handling Interrupt: `FI` [3] for deferred and uncorrected errors,
`CFI` [8] or a counter overflow for corrected ones (R482, R483). -/
def State.raisesFault (s : State) (k : ErrorKind) : Bool :=
  if k = .corrected then bit (s.ctl .erxctlr_el1) 8 || s.correctedOverflow
  else bit (s.ctl .erxctlr_el1) 3

/-- An error raises the Error Recovery Interrupt: `UI` [2] for undeferred uncorrected errors
(R484). -/
def State.raisesRecovery (s : State) (k : ErrorKind) : Bool :=
  (k == .uncorrected || k == .uncontainable) && bit (s.ctl .erxctlr_el1) 2

/-- Error reporting is enabled: `ERR1CTLR.ED`, bit 0 (R62; place PRESUMED, log entry 25). -/
def State.reportsErrors (s : State) : Bool := bit (s.ctl .erxctlr_el1) 0

/-- The record and the interrupt outputs after a detected error that is reported (R482 to R486,
R495); which counter of `ERR1MISC0` counts it, and what `ERR1ADDR` and the other MISC registers say
of it, is free. -/
def State.reportError (s : State) (k : ErrorKind) : State :=
  let s1 := s.put .erxstatus_el1 (s.get .erxstatus_el1 ||| errStatusBits k)
  let s2 := if k = .corrected then
      s1.putByUnit .erxmisc0_el1 fun v => countCorrected v (s.drawBool .ramError 1)
    else (s1.putByUnit .erxaddr_el1 fun _ => s.drawWord .ramError 2).putByUnit .erxmisc1_el1 fun _ =>
      s.drawWord .ramError 3 &&& ~~~0x808000000000#64
  { s2 with ras := { s2.ras with
      faultIrq := s2.ras.faultIrq || s2.raisesFault k
      errIrq := s2.ras.errIrq || s2.raisesRecovery k } }

/-- An error is detected: the event MEMORY_ERROR (R491), and its report where that is enabled (R62).
-/
def State.recordError (s : State) (k : ErrorKind) : State :=
  let s1 := s.countMemoryError
  if s.reportsErrors then s1.reportError k else s1

/-- A write of `ERR1STATUS`: bits written as 1 are cleared. Once `V` is clear both interrupt outputs
are deasserted; which bits lower which output is left open (R486; DESIGN CHOICE, log entry 25). -/
def State.writeErrStatus (s : State) (w : Word) : State :=
  let v := s.get .erxstatus_el1 &&& ~~~w
  let s1 := s.put .erxstatus_el1 v
  if bit v 30 then s1 else { s1 with ras := { s1.ras with faultIrq := false, errIrq := false } }

/-- `ERR1PFGF`: the kinds that can be injected, UC [1], DE [5] and CE [7:6], are those of R490; the
rest is lost. -/
def pfgfValue : Word := (Config.idValue .erxpfgf_el1 &&& ~~~0xE2#64) ||| 0x62

/-- The kind of error that `ERR1PFGCTL` selects for injection, where `ERR1PFGF` has it: DE [5], UC
[1], CE [7:6] (R489, R490). Of several selected the first in this order is injected (DESIGN CHOICE,
log entry 25). -/
def injectedKind (ctl : Word) : Option ErrorKind :=
  if bit ctl 5 && bit pfgfValue 5 then some .deferred
  else if bit ctl 1 && bit pfgfValue 1 then some .uncontainable
  else if field ctl 6 2 ≠ 0 && field pfgfValue 6 2 ≠ 0 then some .corrected
  else none

/-- The injection that a value of `ERR1PFGCTL` selects is armed; it happens at the access that
triggers it (R489, R490). -/
def State.injectError (s : State) (ctl : Word) : State :=
  match injectedKind ctl with
  | some k => { s with ras := { s.ras with armed := some ⟨k, s.cache.lookups, s.cache.evictions⟩ } }
  | none => s

/-- The access that triggers an armed injection has been made: for a corrected error an access of
the L1 data cache, for a deferred one an eviction or a snoop of a line of it, for an uncontainable
one either (R490). -/
def State.triggered (s : State) (a : ArmedError) : Bool :=
  match a.kind with
  | .corrected => s.cache.lookups != a.lookups
  | .deferred => s.cache.evictions != a.evictions
  | .uncorrected | .uncontainable =>
    s.cache.lookups != a.lookups || s.cache.evictions != a.evictions

/-- A triggered injection is reported as the error it stands for, by a core that is on; there is no
hardware fault (R489). -/
def State.fireInjection (s : State) : State :=
  match s.ras.armed with
  | some a =>
    if s.isOn && s.triggered a then
      let s1 := { s with ras := { s.ras with armed := none } }.recordError a.kind
      if a.kind = .uncontainable then s1.pendUncontainable else s1
    else s
  | none => s

/-- A write of `ERR1PFGCTL`: with `CDNEN` [31] clear the injection is armed at once (R489). -/
def State.writeInjectCtl (s : State) (w : Word) : State :=
  let s1 := s.putControl .erxpfgctl_el1 w
  if bit w 31 then s1 else s1.injectError w

/-- A write of `ERR1PFGCDN` loads the countdown (R317 (f), R489). -/
def State.writeInjectCdn (s : State) (w : Word) : State :=
  { s.put .erxpfgcdn_el1 (w &&& 0xFFFFFFFF) with
    ras := { s.ras with countdown := w.setWidth 32 } }

/-- Clock cycles pass for the countdown, while the core is on; when it reaches zero the injection is
armed once (R489, R573, R577). A countdown that stands at 0, run out or loaded with 0, does not
start: `CDNEN` set then injects nothing until `ERR1PFGCDN` is written again, of which R489 says
nothing (DESIGN CHOICE, log entry 25). -/
def State.injectionClock (s : State) (cycles : Nat) : State :=
  if s.isOn && bit (s.ctl .erxpfgctl_el1) 31 && s.ras.countdown != 0 then
    if s.ras.countdown.toNat ≤ cycles then
      let s1 := { s with ras := { s.ras with countdown := 0 } }
      (s1.injectError (s.ctl .erxpfgctl_el1)).putByUnit .erxpfgctl_el1 fun w => withBit w 31 false
    else { s with ras := { s.ras with countdown := s.ras.countdown - BitVec.ofNat 32 cycles } }
  else s

/-! Errors that an eviction meets (R487, R488) -/

/-- An eviction has met the uncorrected error of a block. Which of the two follows is free: poison
defers it, for the consumer of the data to take; or it is an asynchronous external abort, and the
error stays with the block (R487, R488, R490; log entries 25 and 67). -/
def State.meetError (s : State) (b : Nat) : State :=
  if s.drawBool .evictError b then
    let s1 := s.recordError .deferred
    { s1 with
      poison := b :: s1.poison
      cache := { s1.cache with bad := s1.cache.bad.filter (· != b) } }
  else (s.recordError .uncorrected).pendSError

/-- The errors that the evictions of the last step have met are reported. -/
def State.meetEvicted (s : State) : State :=
  s.cache.met.foldl State.meetError { s with cache := { s.cache with met := [] } }

/-! RAM errors of the environment (R480, R481, R487, R488, R495) -/

/-- The RAM is protected by parity alone: the L1 instruction cache and the MMU (R480 (b)). -/
def parityOnly (r : RamKind) : Bool :=
  match r with
  | .l1iTag | .l1iData | .mmu => true
  | .l1dTag | .l1dData | .l2Tag | .l2Data | .l2Tq => false

/-- The RAM holds the tags of the L1 data cache or of the L2 cache, whose errors cannot be contained
(R487). -/
def isTagRam (r : RamKind) : Bool := r == .l1dTag || r == .l2Tag

/-- An error that no logic detects has changed what a RAM holds (R481 (c), (d)): instruction words,
translations, or the data of a block. -/
def State.undetected (s : State) (ram : RamKind) (block : Nat) (data : List Byte) : State :=
  match ram with
  | .l1iTag | .l1iData =>
    { s with cache := { s.cache with old := wordsOf true false (block * 64) (data.take 64) 16 ++ s.cache.old } }
  | .mmu => { s with tlb := ⟨Config.freeTlb (2 * s.draws), Config.freeTlb (2 * s.draws + 1),
      Config.freeL2Tlb s.draws⟩ }
  | .l1dTag | .l1dData | .l2Tag | .l2Data | .l2Tq => s.writeMem (block * 64) (data.take 64)

/-- A double error that ECC detects (R481 (c), R487, R488). One in a tag RAM is uncontainable. One
in a data RAM is deferred, its block poisoned; or it is reported: dirty data may be lost, and
either something that is not a load meets it at once, or it lies in the line until an access meets
it. -/
def State.detected (s : State) (ram : RamKind) (block : Nat) : State :=
  if isTagRam ram then
    let s1 := (s.recordError .uncontainable).pendUncontainable
    if s.drawBool .ramError 0 then s1.invalidateBlock block false else s1
  else if s.drawBool .ramError 4 then
    { s.recordError .deferred with poison := block :: s.poison }
  else
    let s1 := s.recordError .uncorrected
    let s2 := if s.drawBool .ramError 0 then s1.invalidateBlock block false else s1
    if s.drawBool .ramError 5 then s2.pendSError
    else { s2 with cache := { s2.cache with bad := block :: s2.cache.bad } }

/-- Bits flip in one protection granule (R481): one is corrected; two are detected by ECC and not by
parity; three or more may be detected or not. With no cache protection, a model without a RAM error
source, nothing happens (R480), and nothing in a core that is not on: its RAMs are off, or neither
read nor checked (R573, R577, R578). -/
def State.ramError (s : State) (ram : RamKind) (bits block : Nat) (data : List Byte) : State :=
  if !s.isOn || !s.cfg.cacheProtection || bits = 0 then s
  else if bits = 1 then s.recordError .corrected
  else if parityOnly ram then
    if bits ≠ 2 && s.drawBool .ramError 6 then s.recordError .corrected
    else s.undetected ram block data
  else if bits ≠ 2 && s.drawBool .ramError 6 then s.undetected ram block data
  else s.detected ram block

end Sys2Proof.Machine
end

