-- ==== Sys2Proof/Machine/SysRegs.lean ====
section
/-! DEFINITION. What reading and writing a system register does (R46 to R71, R315 to R317): values
computed on a read, counters, side effects, and the legal values of a write. -/

namespace Sys2Proof.Machine

/-! Identification registers (R54, R55, R70, R439) -/

/-- `CTR_EL0`: `ERG` [23:20], `DminLine` [19:16], `IminLine` [3:0] are 4, `IDC` [28] and `DIC` [29]
are 0 (R54, D17); the rest is lost. -/
def ctrValue : Word := (Config.idValue .ctr_el0 &&& ~~~0x30FF000F#64) ||| 0x440004

/-- The identification fields of the Cryptographic Extension, which read 0 without it (R439). -/
def cryptoMask (r : SysReg) : Word :=
  match r with
  | .id_aa64isar0_el1 => 0xFFF0000FFF0
  | .id_aa64zfr0_el1 => 0xF0F000000F0
  | _ => 0

/-- `CCSIDR_EL1` of the cache `CSSELR_EL1` selects: line size, ways - 1, sets - 1 (R55; layout
PRESUMED, log entry 43). -/
def State.ccsidr (s : State) : Word :=
  let geometry (ways sets : Nat) : Word := BitVec.ofNat 64 (2 + (ways - 1) * 8 + (sets - 1) * 2 ^ 13)
  match field (s.ctl .csselr_el1) 0 4 with
  | 0 => geometry 4 (l1dSets s.cfg)
  | 1 => geometry 4 (l1iSets s.cfg)
  | 2 => geometry 8 (l2Sets s.cfg)
  | _ => s.drawWord .lostBits 2

/-! Counters (R91, R507, R508, R530 to R534, R546 to R548; D11) -/

/-- The event counter and the event type register that `PMSELR_EL0` selects. -/
def State.selected (s : State) (l : List SysReg) : Option SysReg :=
  let n := field (s.ctl .pmselr_el0) 0 5
  if n < s.cfg.pmuCounters.count then l[n]? else none

/-- `MPIDR_EL1`: the instance number of the core stands in one affinity field, Aff0 [7:0] to Aff2
[23:16] or Aff3 [39:32] (R70; which one is log entry 57). -/
def State.mpidr (s : State) : Word :=
  putField (Config.idValue .mpidr_el1)
    (if s.cfg.affinityField = 3 then 32 else 8 * s.cfg.affinityField.val) 8 s.cfg.coreId

/-! Timers (R507) -/

/-- The compare register of a timer, its control register, and whether its count is offset by
`CNTVOFF_EL2`. R507 gives the offset of a virtual timer without naming the EL2 virtual timer: the
model compares `CNTHV_CVAL_EL2` with the physical count, with no offset (DESIGN CHOICE, log entry
52). -/
def timerOf (r : SysReg) : Option (SysReg × SysReg × Bool) :=
  match r with
  | .cntp_tval_el0 | .cntp_ctl_el0 => some (.cntp_cval_el0, .cntp_ctl_el0, false)
  | .cntv_tval_el0 | .cntv_ctl_el0 => some (.cntv_cval_el0, .cntv_ctl_el0, true)
  | .cnthp_tval_el2 | .cnthp_ctl_el2 => some (.cnthp_cval_el2, .cnthp_ctl_el2, false)
  | .cnthv_tval_el2 | .cnthv_ctl_el2 => some (.cnthv_cval_el2, .cnthv_ctl_el2, false)
  | .cntps_tval_el1 | .cntps_ctl_el1 => some (.cntps_cval_el1, .cntps_ctl_el1, false)
  | _ => none

/-- The count a timer compares. -/
def State.countOf (s : State) (offset : Bool) : Word :=
  if offset then s.sysCount - s.ctl .cntvoff_el2 else s.sysCount

/-- `CTL`: `ENABLE` and `IMASK` as written, `ISTATUS` [2] the timer condition (R507). -/
def State.readTimerCtl (s : State) (r : SysReg) : Word :=
  match timerOf r with
  | some (cval, _, off) =>
    withBit (s.get r) 2 (bit (s.ctl r) 0 && (s.ctl cval).toNat ≤ (s.countOf off).toNat)
  | none => s.get r

/-- `TVAL`: the low 32 bits of the compare value less the count (R507). -/
def State.readTimerVal (s : State) (r : SysReg) : Word :=
  match timerOf r with
  | some (cval, _, off) => (s.seenAs r cval - s.countOf off) &&& 0xFFFFFFFF
  | none => s.get r

/-- The output of the timer with this control register is asserted: enabled, its condition met, not
masked by `IMASK` [1] (R507). -/
def State.timerAsserted (s : State) (r : SysReg) : Bool :=
  (timerOf r).isSome && bit (s.readTimerCtl r) 2 && !bit (s.ctl r) 1

/-- A write of `TVAL` sets the compare value (R507). -/
def State.writeTimerVal (s : State) (r : SysReg) (w : Word) : State :=
  match timerOf r with
  | some (cval, _, off) =>
    s.putThrough cval (some r) (s.countOf off + (w.setWidth 32).signExtend 64)
  | none => s

/-! The Debug Communications Channel (R551, R66; the bit places and the two views PRESUMED, log
entry 42) -/

/-- What a read of the receive register gives: the word a debugger sent, any value where there is
none. -/
def State.dccReceived (s : State) : BitVec 32 :=
  if s.dbg.rxFull then s.dbg.rx else (s.drawWord .lostBits 6).setWidth 32

/-- The channel after a word has been put into the transmit register: any value where one was
waiting. -/
def State.dccTransmit (s : State) (w : BitVec 32) : DebugUnit :=
  { s.dbg with
    tx := if s.dbg.txFull then (s.drawWord .lostBits 7).setWidth 32 else w
    txFull := true }

/-! Reading (R315) -/

/-- An error record register, where `ERRSELR_EL1` selects this core's record; the record of the
DSU-110 reads as a free value (D23). -/
def State.readRecord (s : State) (v : Word) : Word :=
  if s.ownRecord then v else s.drawWord .lostBits 3

/-- The register can be written through another register or over the utility bus: by a clear
register, by `PMXEVCNTR_EL0`, `PMXEVTYPER_EL0` or `PMCR_EL0`, by a `TVAL` (R50, R65, R308, R507). -/
def writtenElsewhere (r : SysReg) : Bool :=
  match r with
  | .pmcntenset_el0 | .pmovsset_el0 | .pmintenset_el1 | .amcntenset0_el0 | .amcntenset1_el0 => true
  | .pmccntr_el0 | .pmccfiltr_el0 | .imp_cpuppmcr_el3 | .imp_cpumpmmcr_el3 => true
  | .cntp_cval_el0 | .cntv_cval_el0 | .cnthp_cval_el2 | .cnthv_cval_el2 | .cntps_cval_el1 => true
  | _ => pmevcntrs.contains r || pmevtypers.contains r

/-- The value of a register, as an MRS at this state reads it. `OSLSR_EL1` reads as 8 with the lock
at bit 1, `TRCSTATR.IDLE` is bit 0 (PRESUMED, log entries 42 and 12). -/
def State.readSys (s : State) (r : SysReg) : Word :=
  match r with
  | .sp_el0 => s.sp[0]
  | .sp_el1 => s.sp[1]
  | .sp_el2 => s.sp[2]
  | .nzcv | .daif | .currentel | .spsel | .pan | .uao | .dit | .ssbs | .tco =>
    readPStateView s.pstate r
  | .isr_el1 => s.isr
  | .rvbar_el3 => s.cfg.resetVector.setWidth 64
  | .ctr_el0 => ctrValue
  | .dczid_el0 => 4
  | .ccsidr_el1 => s.ccsidr
  | .id_aa64mmfr0_el1 => (Config.idValue r &&& ~~~0xF#64) ||| 2
  | .mpidr_el1 => s.mpidr
  | .midr_el1 | .mpamidr_el1 | .revidr_el1 | .id_aa64pfr0_el1 | .id_aa64pfr1_el1 | .id_aa64dfr0_el1
  | .id_aa64dfr1_el1 | .id_aa64afr0_el1 | .id_aa64afr1_el1 | .id_aa64isar1_el1
  | .id_aa64isar2_el1 | .id_aa64mmfr1_el1 | .id_aa64mmfr2_el1 | .clidr_el1 => Config.idValue r
  | .id_aa64isar0_el1 | .id_aa64zfr0_el1 =>
    if s.cfg.cryptoPresent then Config.idValue r else Config.idValue r &&& ~~~cryptoMask r
  | .erridr_el1 => 2
  | .erxfr_el1 => s.readRecord (Config.idValue r)
  | .erxpfgf_el1 => s.readRecord pfgfValue
  | .erxctlr_el1 | .erxstatus_el1 | .erxaddr_el1 | .erxpfgctl_el1 | .erxpfgcdn_el1 | .erxmisc0_el1
  | .erxmisc1_el1 | .erxmisc2_el1 | .erxmisc3_el1 => s.readRecord (s.get r)
  | .cntpct_el0 => s.sysCount
  | .cntvct_el0 => s.countOf true
  | .cntp_ctl_el0 | .cntv_ctl_el0 | .cnthp_ctl_el2 | .cnthv_ctl_el2 | .cntps_ctl_el1 =>
    s.readTimerCtl r
  | .cntp_tval_el0 | .cntv_tval_el0 | .cnthp_tval_el2 | .cnthv_tval_el2 | .cntps_tval_el1 =>
    s.readTimerVal r
  | .amcfgr_el0 | .amevtyper10_el0 | .amevtyper11_el0 | .amevtyper12_el0 => Config.idValue r
  | .amcgcr_el0 => 0x304
  | .amevtyper00_el0 => 0x0011
  | .amevtyper01_el0 => 0x4004
  | .amevtyper02_el0 => 0x0008
  | .amevtyper03_el0 => 0x4005
  | .amcntenclr0_el0 => s.seenAs r .amcntenset0_el0
  | .amcntenclr1_el0 => s.seenAs r .amcntenset1_el0
  | .pmcr_el0 => (s.get r &&& 0xFF) ||| BitVec.ofNat 64 (s.cfg.pmuCounters.count * 2 ^ 11) |||
      (Config.idValue r &&& 0xFFFF0000)
  | .pmcntenclr_el0 => s.seenAs r .pmcntenset_el0
  | .pmovsclr_el0 => s.seenAs r .pmovsset_el0
  | .pmintenclr_el1 => s.seenAs r .pmintenset_el1
  | .pmxevcntr_el0 => match s.selected pmevcntrs with
    | some c => s.seenAs r c
    | none => s.drawWord .lostBits 4
  | .pmxevtyper_el0 =>
    if field (s.ctl .pmselr_el0) 0 5 = 31 then s.seenAs r .pmccfiltr_el0
    else match s.selected pmevtypers with
      | some c => s.seenAs r c
      | none => s.drawWord .lostBits 4
  | .oslsr_el1 => 8 ||| flagAt s.osLock 1
  | .mdccsr_el0 => flagAt s.dbg.txFull 29 ||| flagAt s.dbg.rxFull 30
  | .dbgdtrx_el0 => s.dccReceived.setWidth 64
  | .dbgdtr_el0 => (s.dbg.tx ++ s.dccReceived).setWidth 64
  | .trcstatr => flagAt (!s.traceOn) 0
  | .pmsidr_el1 => (Config.idValue r &&& ~~~0xF00#64) ||| 0x400
  | _ =>
    if r.info.group == .gic then s.readGic r
    else if writtenElsewhere r then s.seenAs r r
    else s.get r

/-- What reading a register changes: an acknowledge (R479), the word taken from the Debug
Communications Channel (R551). -/
def State.afterRead (s : State) (r : SysReg) : State :=
  match r with
  | .dbgdtrx_el0 | .dbgdtr_el0 => { s with dbg := { s.dbg with rxFull := false } }
  | _ => if r.info.group == .gic then s.afterGicRead r else s

/-! Writing (R316, R317) -/

/-- The value stored by a write: reserved bits 0, fixed bits as they are fixed, bits of a lost
layout free (R316). The trap enables of FPCR are IDE [15] and IXE to IOE [12:8], which stay 0 (R433;
places PRESUMED, log entry 12). -/
def State.legalise (s : State) (r : SysReg) (w : Word) : Word :=
  match r with
  | .vbar_el1 | .vbar_el2 | .vbar_el3 => w &&& ~~~0x7FF#64
  | .scr_el3 => withBit w 10 true
  | .hcr_el2 => withBit w 31 true
  | .rmr_el3 => (w &&& 2) ||| 1
  | .fpcr => w &&& ~~~0x9F00#64
  | .imp_cpuectlr_el1 | .imp_cpuectlr2_el1 | .imp_cpuppmcr_el3 | .imp_cpumpmmcr_el3 | .atcr
  | .avtcr => s.drawWord .lostBits 5
  | .cntp_ctl_el0 | .cntv_ctl_el0 | .cnthp_ctl_el2 | .cnthv_ctl_el2 | .cntps_ctl_el1 => w &&& 3
  | .pmcr_el0 => w &&& 0xF9
  | .pmselr_el0 => w &&& 0x1F
  | .amuserenr_el0 => w &&& 1
  | _ => w

/-- The PMU enables that exist: the cycle counter and the event counters of this build. -/
def State.pmuMask (s : State) : Word :=
  0x80000000 ||| BitVec.ofNat 64 (2 ^ s.cfg.pmuCounters.count - 1)

/-- `PMCR_EL0`: `P` [1] zeroes the event counters, `C` [2] the cycle counter, as later instructions
see it only after a context synchronisation event for sure (R308). -/
def State.writePmcr (s : State) (w : Word) : State :=
  let s1 := s.putControl .pmcr_el0 (s.legalise .pmcr_el0 w)
  let zero (t : State) (r : SysReg) : State := t.putThrough r (some .pmcr_el0) 0
  let s2 := if bit w 1 then pmevcntrs.foldl zero s1 else s1
  if bit w 2 then zero s2 .pmccntr_el0 else s2

/-- The effect of an MSR of `w` (R316, R317); `OSLAR_EL1.OSLK` is bit 0 (PRESUMED, log entry 42). -/
def State.writeSys (s : State) (r : SysReg) (w : Word) : State :=
  match r with
  | .sp_el0 => { s with sp := s.sp.set 0 w }
  | .sp_el1 => { s with sp := s.sp.set 1 w }
  | .sp_el2 => { s with sp := s.sp.set 2 w }
  | .nzcv | .daif | .spsel | .pan | .uao | .dit | .ssbs | .tco =>
    { s with pstate := writePStateView s.pstate r w }
  | .oslar_el1 => { s with osLock := bit w 0 }
  | .dbgdtrx_el0 => { s with dbg := s.dccTransmit (w.setWidth 32) }
  | .dbgdtr_el0 =>
    { s with dbg := { s.dccTransmit (w.setWidth 32) with rx := (w >>> 32).setWidth 32 } }
  | .erxstatus_el1 => if s.ownRecord then s.writeErrStatus w else s
  | .erxpfgctl_el1 => if s.ownRecord then s.writeInjectCtl w else s
  | .erxpfgcdn_el1 => if s.ownRecord then s.writeInjectCdn w else s
  | .erxctlr_el1 | .erxaddr_el1 | .erxmisc0_el1 | .erxmisc1_el1 | .erxmisc2_el1 | .erxmisc3_el1 =>
    if s.ownRecord then s.putControl r w else s
  | .cntp_tval_el0 | .cntv_tval_el0 | .cnthp_tval_el2 | .cnthv_tval_el2 | .cntps_tval_el1 =>
    s.writeTimerVal r w
  | .amcntenset0_el0 => s.putControl r (s.get r ||| (w &&& 0xF))
  | .amcntenclr0_el0 => s.putThrough .amcntenset0_el0 (some r) (s.get .amcntenset0_el0 &&& ~~~w)
  | .amcntenset1_el0 => s.putControl r (s.get r ||| (w &&& 0x7))
  | .amcntenclr1_el0 => s.putThrough .amcntenset1_el0 (some r) (s.get .amcntenset1_el0 &&& ~~~w)
  | .pmcr_el0 => s.writePmcr w
  | .pmcntenset_el0 => s.putControl r (s.get r ||| (w &&& s.pmuMask))
  | .pmcntenclr_el0 => s.putThrough .pmcntenset_el0 (some r) (s.get .pmcntenset_el0 &&& ~~~w)
  | .pmovsset_el0 => s.putControl r (s.get r ||| (w &&& s.pmuMask))
  | .pmovsclr_el0 => s.putThrough .pmovsset_el0 (some r) (s.get .pmovsset_el0 &&& ~~~w)
  | .pmintenset_el1 => s.putControl r (s.get r ||| (w &&& s.pmuMask))
  | .pmintenclr_el1 => s.putThrough .pmintenset_el1 (some r) (s.get .pmintenset_el1 &&& ~~~w)
  | .pmxevcntr_el0 => match s.selected pmevcntrs with
    | some c => s.putThrough c (some r) w
    | none => s
  | .pmxevtyper_el0 =>
    if field (s.ctl .pmselr_el0) 0 5 = 31 then s.putThrough .pmccfiltr_el0 (some r) w
    else match s.selected pmevtypers with
      | some c => s.putThrough c (some r) w
      | none => s
  | _ => if r.info.group == .gic then s.writeGic r w else s.putControl r (s.legalise r w)

/-- The PMU interrupt output `nPMUIRQ[n]` is driven LOW: a counter with its interrupt enabled has
overflowed (R534). -/
def State.pmuIrq (s : State) : Bool :=
  s.ctl .pmovsset_el0 &&& s.ctl .pmintenset_el1 &&& s.pmuMask != 0

/-! MRS and MSR (R315, R316) -/

/-- An encoding the spec does not name: UNDEFINED for the GIC CPU interface when it is disabled;
else the Arm ARM decides whether the access is UNDEFINED, and a read returns a free value (R315,
R500; log entry 14). -/
def State.unnamedSys (s : State) (e : SysEnc) (read : Bool) (effect : State → State) : Out :=
  if s.gicDisabled && e.isGic then .next s.undefined
  else if s.pc.toNat + 4 < 2 ^ 64 then
    .next (if Config.unnamedAccess e s.el read then
      effect { s with pc := s.pc + 4, pstate := { s.pstate with btype := 0 } } else s.undefined)
  else .refused .pcOverflow

/-- The effect of an MRS that is allowed: the value put in `x[rt]`, the side effect of the read. -/
def State.doMrs (s : State) (r : SysReg) (rt : Reg) : State :=
  (s.afterRead r).setX rt (s.readSys r)

/-- `MRS <Xt>, <sysreg>` (R315). A read of a direct-access data register needs a RAMINDEX before it
and an ISB after the last one (R312, R313, U5). -/
def execMrs (rt : Reg) (e : SysEnc) (s : State) : Out :=
  match s.cfg.regAt e with
  | none => s.unnamedSys e true fun t => t.setX rt (s.drawWord .unnamedRegister 0)
  | some r =>
    match s.sysGate r e rt true with
    | some t => .next t
    | none =>
      if r.info.group == .ramData && !s.ram.synced then .refused .ramDataUnsynced
      else s.advanceWith fun t => t.doMrs r rt

/-- `MSR <sysreg>, <Xt>` (R316); it stands between the two of an exclusive pair (R379). -/
def execMsr (e : SysEnc) (rt : Reg) (s : State) : Out :=
  match s.cfg.regAt e with
  | none => s.unnamedSys e false fun t => t.record .disturbance
  | some r =>
    match s.sysGate r e rt false with
    | some t => .next t
    | none => s.advanceWith fun t => (t.writeSys r (s.xr rt)).record .disturbance

end Sys2Proof.Machine
end

