-- ==== Sys2Proof/Machine/System.lean ====
section
/-! DEFINITION. Hints, barriers and system instructions: WFE, WFI, ESB, CLREX, ISB, RAMINDEX and the
general SYS (R300 to R314, R378). MRS and MSR stand in SysRegs.lean. -/

namespace Sys2Proof.Machine

/-- The exception of a trapped WFI or WFE that would sleep, the highest level first: `SCR_EL3.TWI`
[12] and `TWE` [13], `HCR_EL2.TWI` [13] and `TWE` [14], `SCTLR_EL1.nTWI` [16] and `nTWE` [18] for
EL0 (R303, R305, R457, R469; places PRESUMED, log entry 12). Under `E2H` and `TGE` the last two are
those of `SCTLR_EL2`, the SCTLR of the regime of EL0 (PRESUMED, log entry 37). -/
def State.sleepTrap (s : State) (wfe : Bool) : Option State :=
  let take (t : EL) : Option State :=
    some (s.takeSync t 0x01 (trapCond ||| (if wfe then 1 else 0)))
  if s.el < 3 && bit s.scr (if wfe then 13 else 12) then take 3
  else if s.hcrBelow (if wfe then 14 else 13) then take 2
  else if s.el = 0 && !bit s.sctlr (if wfe then 18 else 16) then take s.syncTarget
  else none

/-- Entry to a low-power state; every earlier access has completed (R302, R303, R305). -/
def State.enterSleep (s : State) (m : LowPower) (masked : Bool) : State :=
  { s.record .completed with
    sleep := { s.sleep with lowPower := m, wakeMasked := masked, retentionExpired := false } }

/-- `CORE_PWRDN_EN` as the core sees it (R47, R304). -/
def State.powerdownEnabled (s : State) : Bool := bit (s.ctl .imp_cpupwrctlr_el1) 0

/-- `WFE` (R305): a set event register is cleared and the instruction completes. -/
def execWfe (s : State) : Out :=
  if s.eventReg then s.advanceWith fun t => { t with eventReg := false }
  else match s.sleepTrap true with
    | some t => .next t
    | none => .next (s.enterSleep .wfe false)

/-- `WFI` (R303, R304): the Warm reset requested through `RMR_EL3.RR` happens here (R604); under
`CORE_PWRDN_EN` the core sleeps with every wake-up event masked; with a wake-up event pending the
instruction completes at once. -/
def execWfi (s : State) : Out :=
  if bit (s.ctl .rmr_el3) 1 then .next { s with power := .warmReset }
  else if !s.powerdownEnabled && s.wfiWakes then s.advanceWith fun t => t.record .completed
  else match s.sleepTrap false with
    | some t => .next t
    | none => .next (s.enterSleep .wfi s.powerdownEnabled)

/-- `DISR_EL1` or `VDISR_EL2` with a deferred SError: `A` [31] and the syndrome (R310). -/
def deferredWord (iss : BitVec 25) : Word := flagAt true 31 ||| iss.setWidth 64

/-- A masked pending physical SError is deferred into `DISR_EL1` (R310). -/
def State.deferSError (s : State) : State :=
  match s.irq.serror with
  | some iss => s.consumed.put .disr_el1
      (deferredWord (iss ||| (if s.irq.due then 0x2000 else 0)))
  | none => s

/-- A masked pending virtual SError is deferred into `VDISR_EL2` (log entry 50). -/
def State.deferVirtual (s : State) : State :=
  if s.isPending .vserror then
    s.clearVse.put .vdisr_el2 (deferredWord ((s.ctl .vsesr_el2).setWidth 25))
  else s

/-- The return address of an SError taken at an ESB: the ESB or the next instruction (R310,
R477). -/
def State.esbReturn (s : State) : Word :=
  if s.drawBool .esbReturn 0 then s.pc + 4 else s.pc

/-- `ESB` (R310): every pending SError is taken, if unmasked, or deferred. -/
def execEsb (s : State) : Out :=
  if s.isPending .serror && s.takeable .serror then
    .next ((s.record .errorSync).takeAsync .serror s.esbReturn)
  else if s.isPending .vserror && s.takeable .vserror then
    .next ((s.deferSError.record .errorSync).takeAsync .vserror s.esbReturn)
  else s.advanceWith fun t => (t.deferSError.deferVirtual).record .errorSync

/-- `CLREX` (R378); `CRm` is ignored. -/
def execClrex (_crm : BitVec 4) (s : State) : Out := s.advanceWith State.openMonitor

/-- `ISB` (R308); any `CRm` executes identically. -/
def execIsb (_crm : BitVec 4) (s : State) : Out := s.advanceWith State.contextSync

/-- The twelve direct-access data registers with their numbers (R313). -/
def ramDataRegs : List (SysReg × Nat) :=
  [(.ramdata0, 0), (.ramdata1, 1), (.ramdata2, 2), (.ramdata3, 3), (.ramdata4, 4), (.ramdata5, 5),
   (.ramdata6, 6), (.ramdata7, 7), (.ramdata8, 8), (.ramdata9, 9), (.ramdata10, 10),
   (.ramdata11, 11)]

/-- The effect of the RAMINDEX write at EL3: the data registers take the selected entry (R312); it
is a system register write for an exclusive pair (R379). -/
def State.doRamIndex (s : State) (w : Word) : State :=
  let s1 := ramDataRegs.foldl (fun t p => t.put p.1 (Config.ramRead w s.draws p.2)) s
  { s1.record .disturbance with ram := ⟨w, s.draws, true, false⟩ }

/-- `SYS #6, C15, C0, #0, <Xt>` (R312): UNDEFINED below EL3. -/
def execRamindex (rt : Reg) (s : State) : Out :=
  if s.el = 3 then s.advanceWith fun t => t.doRamIndex (s.xr rt) else .next s.undefined

/-- `SYS` in general: every operation but the four named ones belongs to the Arm ARM and is refused
(R314). -/
def execSys (_op1 : BitVec 3) (_crn _crm : BitVec 4) (_op2 : BitVec 3) (_rt : Reg) (_s : State) : Out :=
  .refused .archSys

end Sys2Proof.Machine
end

