-- ==== Sys2Proof/Machine/Dispatch.lean ====
section
/-! DEFINITION. The meaning of each instruction, one arm per constructor. -/

namespace Sys2Proof.Machine

/-- The execution of one instruction. -/
def exec (i : Instr) (s : State) : Host.Outcome State Fault Refusal :=
  match i with
  | .wfe => Sys2Proof.Machine.execWfe s
  | .wfi => Sys2Proof.Machine.execWfi s
  | .esb => Sys2Proof.Machine.execEsb s
  | .clrex crm => Sys2Proof.Machine.execClrex crm s
  | .isb crm => Sys2Proof.Machine.execIsb crm s
  | .ramindex rt => Sys2Proof.Machine.execRamindex rt s
  | .dcZva rt => Sys2Proof.Machine.execDcZva rt s
  | .dcCisw rt => Sys2Proof.Machine.execDcCisw rt s
  | .dcIvac rt => Sys2Proof.Machine.execDcIvac rt s
  | .sys op1 crn crm op2 rt => Sys2Proof.Machine.execSys op1 crn crm op2 rt s
  | .mrs rt e => Sys2Proof.Machine.execMrs rt e s
  | .msr e rt => Sys2Proof.Machine.execMsr e rt s
  | .bl imm26 => Sys2Proof.Machine.execBl imm26 s
  | .blr rn => Sys2Proof.Machine.execBlr rn s
  | .blraaz rn => Sys2Proof.Machine.execBlraaz rn s
  | .blrabz rn => Sys2Proof.Machine.execBlrabz rn s
  | .blraa rn rm => Sys2Proof.Machine.execBlraa rn rm s
  | .blrab rn rm => Sys2Proof.Machine.execBlrab rn rm s
  | .ret rn => Sys2Proof.Machine.execRet rn s
  | .retaa => Sys2Proof.Machine.execRetaa s
  | .retab => Sys2Proof.Machine.execRetab s
  | .eret => Sys2Proof.Machine.execEret s
  | .eretaa => Sys2Proof.Machine.execEretaa s
  | .eretab => Sys2Proof.Machine.execEretab s
  | .ldxrb rt rn => Sys2Proof.Machine.execLdxrb rt rn s
  | .ldxrh rt rn => Sys2Proof.Machine.execLdxrh rt rn s
  | .ldxrW rt rn => Sys2Proof.Machine.execLdxrW rt rn s
  | .ldxrX rt rn => Sys2Proof.Machine.execLdxrX rt rn s
  | .ldxpW rt rt2 rn => Sys2Proof.Machine.execLdxpW rt rt2 rn s
  | .ldxpX rt rt2 rn => Sys2Proof.Machine.execLdxpX rt rt2 rn s
  | .ldaxrb rt rn => Sys2Proof.Machine.execLdaxrb rt rn s
  | .ldaxrh rt rn => Sys2Proof.Machine.execLdaxrh rt rn s
  | .ldaxrW rt rn => Sys2Proof.Machine.execLdaxrW rt rn s
  | .ldaxrX rt rn => Sys2Proof.Machine.execLdaxrX rt rn s
  | .ldaxpW rt rt2 rn => Sys2Proof.Machine.execLdaxpW rt rt2 rn s
  | .ldaxpX rt rt2 rn => Sys2Proof.Machine.execLdaxpX rt rt2 rn s
  | .stxrb rs rt rn => Sys2Proof.Machine.execStxrb rs rt rn s
  | .stxrh rs rt rn => Sys2Proof.Machine.execStxrh rs rt rn s
  | .stxrW rs rt rn => Sys2Proof.Machine.execStxrW rs rt rn s
  | .stxrX rs rt rn => Sys2Proof.Machine.execStxrX rs rt rn s
  | .stxpW rs rt rt2 rn => Sys2Proof.Machine.execStxpW rs rt rt2 rn s
  | .stxpX rs rt rt2 rn => Sys2Proof.Machine.execStxpX rs rt rt2 rn s
  | .stlxrb rs rt rn => Sys2Proof.Machine.execStlxrb rs rt rn s
  | .stlxrh rs rt rn => Sys2Proof.Machine.execStlxrh rs rt rn s
  | .stlxrW rs rt rn => Sys2Proof.Machine.execStlxrW rs rt rn s
  | .stlxrX rs rt rn => Sys2Proof.Machine.execStlxrX rs rt rn s
  | .stlxpW rs rt rt2 rn => Sys2Proof.Machine.execStlxpW rs rt rt2 rn s
  | .stlxpX rs rt rt2 rn => Sys2Proof.Machine.execStlxpX rs rt rt2 rn s
  | .casW rs rt rn => Sys2Proof.Machine.execCasW rs rt rn s
  | .caslW rs rt rn => Sys2Proof.Machine.execCaslW rs rt rn s
  | .casaW rs rt rn => Sys2Proof.Machine.execCasaW rs rt rn s
  | .casalW rs rt rn => Sys2Proof.Machine.execCasalW rs rt rn s
  | .casX rs rt rn => Sys2Proof.Machine.execCasX rs rt rn s
  | .caslX rs rt rn => Sys2Proof.Machine.execCaslX rs rt rn s
  | .casaX rs rt rn => Sys2Proof.Machine.execCasaX rs rt rn s
  | .casalX rs rt rn => Sys2Proof.Machine.execCasalX rs rt rn s
  | .casb rs rt rn => Sys2Proof.Machine.execCasb rs rt rn s
  | .caslb rs rt rn => Sys2Proof.Machine.execCaslb rs rt rn s
  | .casab rs rt rn => Sys2Proof.Machine.execCasab rs rt rn s
  | .casalb rs rt rn => Sys2Proof.Machine.execCasalb rs rt rn s
  | .cash rs rt rn => Sys2Proof.Machine.execCash rs rt rn s
  | .caslh rs rt rn => Sys2Proof.Machine.execCaslh rs rt rn s
  | .casah rs rt rn => Sys2Proof.Machine.execCasah rs rt rn s
  | .casalh rs rt rn => Sys2Proof.Machine.execCasalh rs rt rn s
  | .caspW rs rt rn => Sys2Proof.Machine.execCaspW rs rt rn s
  | .casplW rs rt rn => Sys2Proof.Machine.execCasplW rs rt rn s
  | .caspaW rs rt rn => Sys2Proof.Machine.execCaspaW rs rt rn s
  | .caspalW rs rt rn => Sys2Proof.Machine.execCaspalW rs rt rn s
  | .caspX rs rt rn => Sys2Proof.Machine.execCaspX rs rt rn s
  | .casplX rs rt rn => Sys2Proof.Machine.execCasplX rs rt rn s
  | .caspaX rs rt rn => Sys2Proof.Machine.execCaspaX rs rt rn s
  | .caspalX rs rt rn => Sys2Proof.Machine.execCaspalX rs rt rn s
  | .staddb rs rn => Sys2Proof.Machine.execStaddb rs rn s
  | .staddh rs rn => Sys2Proof.Machine.execStaddh rs rn s
  | .staddW rs rn => Sys2Proof.Machine.execStaddW rs rn s
  | .staddX rs rn => Sys2Proof.Machine.execStaddX rs rn s
  | .staddlb rs rn => Sys2Proof.Machine.execStaddlb rs rn s
  | .staddlh rs rn => Sys2Proof.Machine.execStaddlh rs rn s
  | .staddlW rs rn => Sys2Proof.Machine.execStaddlW rs rn s
  | .staddlX rs rn => Sys2Proof.Machine.execStaddlX rs rn s
  | .stclrb rs rn => Sys2Proof.Machine.execStclrb rs rn s
  | .stclrh rs rn => Sys2Proof.Machine.execStclrh rs rn s
  | .stclrW rs rn => Sys2Proof.Machine.execStclrW rs rn s
  | .stclrX rs rn => Sys2Proof.Machine.execStclrX rs rn s
  | .stclrlb rs rn => Sys2Proof.Machine.execStclrlb rs rn s
  | .stclrlh rs rn => Sys2Proof.Machine.execStclrlh rs rn s
  | .stclrlW rs rn => Sys2Proof.Machine.execStclrlW rs rn s
  | .stclrlX rs rn => Sys2Proof.Machine.execStclrlX rs rn s
  | .steorb rs rn => Sys2Proof.Machine.execSteorb rs rn s
  | .steorh rs rn => Sys2Proof.Machine.execSteorh rs rn s
  | .steorW rs rn => Sys2Proof.Machine.execSteorW rs rn s
  | .steorX rs rn => Sys2Proof.Machine.execSteorX rs rn s
  | .steorlb rs rn => Sys2Proof.Machine.execSteorlb rs rn s
  | .steorlh rs rn => Sys2Proof.Machine.execSteorlh rs rn s
  | .steorlW rs rn => Sys2Proof.Machine.execSteorlW rs rn s
  | .steorlX rs rn => Sys2Proof.Machine.execSteorlX rs rn s
  | .stsetb rs rn => Sys2Proof.Machine.execStsetb rs rn s
  | .stseth rs rn => Sys2Proof.Machine.execStseth rs rn s
  | .stsetW rs rn => Sys2Proof.Machine.execStsetW rs rn s
  | .stsetX rs rn => Sys2Proof.Machine.execStsetX rs rn s
  | .stsetlb rs rn => Sys2Proof.Machine.execStsetlb rs rn s
  | .stsetlh rs rn => Sys2Proof.Machine.execStsetlh rs rn s
  | .stsetlW rs rn => Sys2Proof.Machine.execStsetlW rs rn s
  | .stsetlX rs rn => Sys2Proof.Machine.execStsetlX rs rn s
  | .stsmaxb rs rn => Sys2Proof.Machine.execStsmaxb rs rn s
  | .stsmaxh rs rn => Sys2Proof.Machine.execStsmaxh rs rn s
  | .stsmaxW rs rn => Sys2Proof.Machine.execStsmaxW rs rn s
  | .stsmaxX rs rn => Sys2Proof.Machine.execStsmaxX rs rn s
  | .stsmaxlb rs rn => Sys2Proof.Machine.execStsmaxlb rs rn s
  | .stsmaxlh rs rn => Sys2Proof.Machine.execStsmaxlh rs rn s
  | .stsmaxlW rs rn => Sys2Proof.Machine.execStsmaxlW rs rn s
  | .stsmaxlX rs rn => Sys2Proof.Machine.execStsmaxlX rs rn s
  | .stsminb rs rn => Sys2Proof.Machine.execStsminb rs rn s
  | .stsminh rs rn => Sys2Proof.Machine.execStsminh rs rn s
  | .stsminW rs rn => Sys2Proof.Machine.execStsminW rs rn s
  | .stsminX rs rn => Sys2Proof.Machine.execStsminX rs rn s
  | .stsminlb rs rn => Sys2Proof.Machine.execStsminlb rs rn s
  | .stsminlh rs rn => Sys2Proof.Machine.execStsminlh rs rn s
  | .stsminlW rs rn => Sys2Proof.Machine.execStsminlW rs rn s
  | .stsminlX rs rn => Sys2Proof.Machine.execStsminlX rs rn s
  | .stumaxb rs rn => Sys2Proof.Machine.execStumaxb rs rn s
  | .stumaxh rs rn => Sys2Proof.Machine.execStumaxh rs rn s
  | .stumaxW rs rn => Sys2Proof.Machine.execStumaxW rs rn s
  | .stumaxX rs rn => Sys2Proof.Machine.execStumaxX rs rn s
  | .stumaxlb rs rn => Sys2Proof.Machine.execStumaxlb rs rn s
  | .stumaxlh rs rn => Sys2Proof.Machine.execStumaxlh rs rn s
  | .stumaxlW rs rn => Sys2Proof.Machine.execStumaxlW rs rn s
  | .stumaxlX rs rn => Sys2Proof.Machine.execStumaxlX rs rn s
  | .stuminb rs rn => Sys2Proof.Machine.execStuminb rs rn s
  | .stuminh rs rn => Sys2Proof.Machine.execStuminh rs rn s
  | .stuminW rs rn => Sys2Proof.Machine.execStuminW rs rn s
  | .stuminX rs rn => Sys2Proof.Machine.execStuminX rs rn s
  | .stuminlb rs rn => Sys2Proof.Machine.execStuminlb rs rn s
  | .stuminlh rs rn => Sys2Proof.Machine.execStuminlh rs rn s
  | .stuminlW rs rn => Sys2Proof.Machine.execStuminlW rs rn s
  | .stuminlX rs rn => Sys2Proof.Machine.execStuminlX rs rn s
  | .ldaddb rs rt rn => Sys2Proof.Machine.execLdaddb rs rt rn s
  | .ldaddh rs rt rn => Sys2Proof.Machine.execLdaddh rs rt rn s
  | .ldaddW rs rt rn => Sys2Proof.Machine.execLdaddW rs rt rn s
  | .ldaddX rs rt rn => Sys2Proof.Machine.execLdaddX rs rt rn s
  | .ldaddlb rs rt rn => Sys2Proof.Machine.execLdaddlb rs rt rn s
  | .ldaddlh rs rt rn => Sys2Proof.Machine.execLdaddlh rs rt rn s
  | .ldaddlW rs rt rn => Sys2Proof.Machine.execLdaddlW rs rt rn s
  | .ldaddlX rs rt rn => Sys2Proof.Machine.execLdaddlX rs rt rn s
  | .ldaddab rs rt rn => Sys2Proof.Machine.execLdaddab rs rt rn s
  | .ldaddah rs rt rn => Sys2Proof.Machine.execLdaddah rs rt rn s
  | .ldaddaW rs rt rn => Sys2Proof.Machine.execLdaddaW rs rt rn s
  | .ldaddaX rs rt rn => Sys2Proof.Machine.execLdaddaX rs rt rn s
  | .ldaddalb rs rt rn => Sys2Proof.Machine.execLdaddalb rs rt rn s
  | .ldaddalh rs rt rn => Sys2Proof.Machine.execLdaddalh rs rt rn s
  | .ldaddalW rs rt rn => Sys2Proof.Machine.execLdaddalW rs rt rn s
  | .ldaddalX rs rt rn => Sys2Proof.Machine.execLdaddalX rs rt rn s
  | .ldclrb rs rt rn => Sys2Proof.Machine.execLdclrb rs rt rn s
  | .ldclrh rs rt rn => Sys2Proof.Machine.execLdclrh rs rt rn s
  | .ldclrW rs rt rn => Sys2Proof.Machine.execLdclrW rs rt rn s
  | .ldclrX rs rt rn => Sys2Proof.Machine.execLdclrX rs rt rn s
  | .ldclrlb rs rt rn => Sys2Proof.Machine.execLdclrlb rs rt rn s
  | .ldclrlh rs rt rn => Sys2Proof.Machine.execLdclrlh rs rt rn s
  | .ldclrlW rs rt rn => Sys2Proof.Machine.execLdclrlW rs rt rn s
  | .ldclrlX rs rt rn => Sys2Proof.Machine.execLdclrlX rs rt rn s
  | .ldclrab rs rt rn => Sys2Proof.Machine.execLdclrab rs rt rn s
  | .ldclrah rs rt rn => Sys2Proof.Machine.execLdclrah rs rt rn s
  | .ldclraW rs rt rn => Sys2Proof.Machine.execLdclraW rs rt rn s
  | .ldclraX rs rt rn => Sys2Proof.Machine.execLdclraX rs rt rn s
  | .ldclralb rs rt rn => Sys2Proof.Machine.execLdclralb rs rt rn s
  | .ldclralh rs rt rn => Sys2Proof.Machine.execLdclralh rs rt rn s
  | .ldclralW rs rt rn => Sys2Proof.Machine.execLdclralW rs rt rn s
  | .ldclralX rs rt rn => Sys2Proof.Machine.execLdclralX rs rt rn s
  | .ldeorb rs rt rn => Sys2Proof.Machine.execLdeorb rs rt rn s
  | .ldeorh rs rt rn => Sys2Proof.Machine.execLdeorh rs rt rn s
  | .ldeorW rs rt rn => Sys2Proof.Machine.execLdeorW rs rt rn s
  | .ldeorX rs rt rn => Sys2Proof.Machine.execLdeorX rs rt rn s
  | .ldeorlb rs rt rn => Sys2Proof.Machine.execLdeorlb rs rt rn s
  | .ldeorlh rs rt rn => Sys2Proof.Machine.execLdeorlh rs rt rn s
  | .ldeorlW rs rt rn => Sys2Proof.Machine.execLdeorlW rs rt rn s
  | .ldeorlX rs rt rn => Sys2Proof.Machine.execLdeorlX rs rt rn s
  | .ldeorab rs rt rn => Sys2Proof.Machine.execLdeorab rs rt rn s
  | .ldeorah rs rt rn => Sys2Proof.Machine.execLdeorah rs rt rn s
  | .ldeoraW rs rt rn => Sys2Proof.Machine.execLdeoraW rs rt rn s
  | .ldeoraX rs rt rn => Sys2Proof.Machine.execLdeoraX rs rt rn s
  | .ldeoralb rs rt rn => Sys2Proof.Machine.execLdeoralb rs rt rn s
  | .ldeoralh rs rt rn => Sys2Proof.Machine.execLdeoralh rs rt rn s
  | .ldeoralW rs rt rn => Sys2Proof.Machine.execLdeoralW rs rt rn s
  | .ldeoralX rs rt rn => Sys2Proof.Machine.execLdeoralX rs rt rn s
  | .ldsetb rs rt rn => Sys2Proof.Machine.execLdsetb rs rt rn s
  | .ldseth rs rt rn => Sys2Proof.Machine.execLdseth rs rt rn s
  | .ldsetW rs rt rn => Sys2Proof.Machine.execLdsetW rs rt rn s
  | .ldsetX rs rt rn => Sys2Proof.Machine.execLdsetX rs rt rn s
  | .ldsetlb rs rt rn => Sys2Proof.Machine.execLdsetlb rs rt rn s
  | .ldsetlh rs rt rn => Sys2Proof.Machine.execLdsetlh rs rt rn s
  | .ldsetlW rs rt rn => Sys2Proof.Machine.execLdsetlW rs rt rn s
  | .ldsetlX rs rt rn => Sys2Proof.Machine.execLdsetlX rs rt rn s
  | .ldsetab rs rt rn => Sys2Proof.Machine.execLdsetab rs rt rn s
  | .ldsetah rs rt rn => Sys2Proof.Machine.execLdsetah rs rt rn s
  | .ldsetaW rs rt rn => Sys2Proof.Machine.execLdsetaW rs rt rn s
  | .ldsetaX rs rt rn => Sys2Proof.Machine.execLdsetaX rs rt rn s
  | .ldsetalb rs rt rn => Sys2Proof.Machine.execLdsetalb rs rt rn s
  | .ldsetalh rs rt rn => Sys2Proof.Machine.execLdsetalh rs rt rn s
  | .ldsetalW rs rt rn => Sys2Proof.Machine.execLdsetalW rs rt rn s
  | .ldsetalX rs rt rn => Sys2Proof.Machine.execLdsetalX rs rt rn s
  | .ldsmaxb rs rt rn => Sys2Proof.Machine.execLdsmaxb rs rt rn s
  | .ldsmaxh rs rt rn => Sys2Proof.Machine.execLdsmaxh rs rt rn s
  | .ldsmaxW rs rt rn => Sys2Proof.Machine.execLdsmaxW rs rt rn s
  | .ldsmaxX rs rt rn => Sys2Proof.Machine.execLdsmaxX rs rt rn s
  | .ldsmaxlb rs rt rn => Sys2Proof.Machine.execLdsmaxlb rs rt rn s
  | .ldsmaxlh rs rt rn => Sys2Proof.Machine.execLdsmaxlh rs rt rn s
  | .ldsmaxlW rs rt rn => Sys2Proof.Machine.execLdsmaxlW rs rt rn s
  | .ldsmaxlX rs rt rn => Sys2Proof.Machine.execLdsmaxlX rs rt rn s
  | .ldsmaxab rs rt rn => Sys2Proof.Machine.execLdsmaxab rs rt rn s
  | .ldsmaxah rs rt rn => Sys2Proof.Machine.execLdsmaxah rs rt rn s
  | .ldsmaxaW rs rt rn => Sys2Proof.Machine.execLdsmaxaW rs rt rn s
  | .ldsmaxaX rs rt rn => Sys2Proof.Machine.execLdsmaxaX rs rt rn s
  | .ldsmaxalb rs rt rn => Sys2Proof.Machine.execLdsmaxalb rs rt rn s
  | .ldsmaxalh rs rt rn => Sys2Proof.Machine.execLdsmaxalh rs rt rn s
  | .ldsmaxalW rs rt rn => Sys2Proof.Machine.execLdsmaxalW rs rt rn s
  | .ldsmaxalX rs rt rn => Sys2Proof.Machine.execLdsmaxalX rs rt rn s
  | .ldsminb rs rt rn => Sys2Proof.Machine.execLdsminb rs rt rn s
  | .ldsminh rs rt rn => Sys2Proof.Machine.execLdsminh rs rt rn s
  | .ldsminW rs rt rn => Sys2Proof.Machine.execLdsminW rs rt rn s
  | .ldsminX rs rt rn => Sys2Proof.Machine.execLdsminX rs rt rn s
  | .ldsminlb rs rt rn => Sys2Proof.Machine.execLdsminlb rs rt rn s
  | .ldsminlh rs rt rn => Sys2Proof.Machine.execLdsminlh rs rt rn s
  | .ldsminlW rs rt rn => Sys2Proof.Machine.execLdsminlW rs rt rn s
  | .ldsminlX rs rt rn => Sys2Proof.Machine.execLdsminlX rs rt rn s
  | .ldsminab rs rt rn => Sys2Proof.Machine.execLdsminab rs rt rn s
  | .ldsminah rs rt rn => Sys2Proof.Machine.execLdsminah rs rt rn s
  | .ldsminaW rs rt rn => Sys2Proof.Machine.execLdsminaW rs rt rn s
  | .ldsminaX rs rt rn => Sys2Proof.Machine.execLdsminaX rs rt rn s
  | .ldsminalb rs rt rn => Sys2Proof.Machine.execLdsminalb rs rt rn s
  | .ldsminalh rs rt rn => Sys2Proof.Machine.execLdsminalh rs rt rn s
  | .ldsminalW rs rt rn => Sys2Proof.Machine.execLdsminalW rs rt rn s
  | .ldsminalX rs rt rn => Sys2Proof.Machine.execLdsminalX rs rt rn s
  | .ldumaxb rs rt rn => Sys2Proof.Machine.execLdumaxb rs rt rn s
  | .ldumaxh rs rt rn => Sys2Proof.Machine.execLdumaxh rs rt rn s
  | .ldumaxW rs rt rn => Sys2Proof.Machine.execLdumaxW rs rt rn s
  | .ldumaxX rs rt rn => Sys2Proof.Machine.execLdumaxX rs rt rn s
  | .ldumaxlb rs rt rn => Sys2Proof.Machine.execLdumaxlb rs rt rn s
  | .ldumaxlh rs rt rn => Sys2Proof.Machine.execLdumaxlh rs rt rn s
  | .ldumaxlW rs rt rn => Sys2Proof.Machine.execLdumaxlW rs rt rn s
  | .ldumaxlX rs rt rn => Sys2Proof.Machine.execLdumaxlX rs rt rn s
  | .ldumaxab rs rt rn => Sys2Proof.Machine.execLdumaxab rs rt rn s
  | .ldumaxah rs rt rn => Sys2Proof.Machine.execLdumaxah rs rt rn s
  | .ldumaxaW rs rt rn => Sys2Proof.Machine.execLdumaxaW rs rt rn s
  | .ldumaxaX rs rt rn => Sys2Proof.Machine.execLdumaxaX rs rt rn s
  | .ldumaxalb rs rt rn => Sys2Proof.Machine.execLdumaxalb rs rt rn s
  | .ldumaxalh rs rt rn => Sys2Proof.Machine.execLdumaxalh rs rt rn s
  | .ldumaxalW rs rt rn => Sys2Proof.Machine.execLdumaxalW rs rt rn s
  | .ldumaxalX rs rt rn => Sys2Proof.Machine.execLdumaxalX rs rt rn s
  | .lduminb rs rt rn => Sys2Proof.Machine.execLduminb rs rt rn s
  | .lduminh rs rt rn => Sys2Proof.Machine.execLduminh rs rt rn s
  | .lduminW rs rt rn => Sys2Proof.Machine.execLduminW rs rt rn s
  | .lduminX rs rt rn => Sys2Proof.Machine.execLduminX rs rt rn s
  | .lduminlb rs rt rn => Sys2Proof.Machine.execLduminlb rs rt rn s
  | .lduminlh rs rt rn => Sys2Proof.Machine.execLduminlh rs rt rn s
  | .lduminlW rs rt rn => Sys2Proof.Machine.execLduminlW rs rt rn s
  | .lduminlX rs rt rn => Sys2Proof.Machine.execLduminlX rs rt rn s
  | .lduminab rs rt rn => Sys2Proof.Machine.execLduminab rs rt rn s
  | .lduminah rs rt rn => Sys2Proof.Machine.execLduminah rs rt rn s
  | .lduminaW rs rt rn => Sys2Proof.Machine.execLduminaW rs rt rn s
  | .lduminaX rs rt rn => Sys2Proof.Machine.execLduminaX rs rt rn s
  | .lduminalb rs rt rn => Sys2Proof.Machine.execLduminalb rs rt rn s
  | .lduminalh rs rt rn => Sys2Proof.Machine.execLduminalh rs rt rn s
  | .lduminalW rs rt rn => Sys2Proof.Machine.execLduminalW rs rt rn s
  | .lduminalX rs rt rn => Sys2Proof.Machine.execLduminalX rs rt rn s
  | .swpb rs rt rn => Sys2Proof.Machine.execSwpb rs rt rn s
  | .swph rs rt rn => Sys2Proof.Machine.execSwph rs rt rn s
  | .swpW rs rt rn => Sys2Proof.Machine.execSwpW rs rt rn s
  | .swpX rs rt rn => Sys2Proof.Machine.execSwpX rs rt rn s
  | .swplb rs rt rn => Sys2Proof.Machine.execSwplb rs rt rn s
  | .swplh rs rt rn => Sys2Proof.Machine.execSwplh rs rt rn s
  | .swplW rs rt rn => Sys2Proof.Machine.execSwplW rs rt rn s
  | .swplX rs rt rn => Sys2Proof.Machine.execSwplX rs rt rn s
  | .swpab rs rt rn => Sys2Proof.Machine.execSwpab rs rt rn s
  | .swpah rs rt rn => Sys2Proof.Machine.execSwpah rs rt rn s
  | .swpaW rs rt rn => Sys2Proof.Machine.execSwpaW rs rt rn s
  | .swpaX rs rt rn => Sys2Proof.Machine.execSwpaX rs rt rn s
  | .swpalb rs rt rn => Sys2Proof.Machine.execSwpalb rs rt rn s
  | .swpalh rs rt rn => Sys2Proof.Machine.execSwpalh rs rt rn s
  | .swpalW rs rt rn => Sys2Proof.Machine.execSwpalW rs rt rn s
  | .swpalX rs rt rn => Sys2Proof.Machine.execSwpalX rs rt rn s
  | .prfmImm prfop rn imm12 => Sys2Proof.Machine.execPrfmImm prfop rn imm12 s
  | .prfum prfop rn imm9 => Sys2Proof.Machine.execPrfum prfop rn imm9 s
  | .prfmReg prfop rn rm option sh => Sys2Proof.Machine.execPrfmReg prfop rn rm option sh s
  | .prfmLit prfop imm19 => Sys2Proof.Machine.execPrfmLit prfop imm19 s

end Sys2Proof.Machine
end

