-- ==== Sys2Proof/Machine/Fetch.lean ====
section
/-! DEFINITION. Fetching an instruction: its exceptions, the words a fetch may see, and the checks
between the fetch and the execution (R44, R182 to R192, R453, R455, R554). -/

namespace Sys2Proof.Machine

/-- A fetch: the word with the state after it and its mapping, or the end of the step. -/
inductive Fetched where
  | word (s : State) (m : Mapped) (w : Ins)
  | stop (o : Out)

/-- The PC alignment fault: FAR is `pc` (R455). -/
def State.pcAlignmentFault (s : State) : State :=
  s.takeException ⟨s.syncTarget, .sync, s.pc, some (esrWord 0x22 0), .write s.pc, none⟩

/-- The synchronous external abort of a fetch (R459, R488). -/
def State.fetchAbort (s : State) : State :=
  s.takeAbort true false true (s.externalIss 0b010000 false false false) s.pc 0

/-- The fetch is made Non-cacheably: the instruction cache disabled, or memory that is not
Write-Back (R182, R185). -/
def State.fetchUncached (s : State) (m : Mapped) : Bool :=
  !bit s.sctlr 12 || !m.attr.type.isWriteBack

/-- Words other than memory's that a fetch may see: those the instruction cache still holds (R182,
R192); and, when the fetch is Non-cacheable, those below a line that a data cache holds dirty, here
or in another core (R182). -/
def State.otherWords (s : State) (m : Mapped) : List Ins :=
  let key := mappedKey m
  let old := (s.cache.old.filter fun w =>
    w.key == key && (w.held || (w.below && s.fetchUncached m))).map (·.word)
  match (if s.fetchUncached m then s.cache.dirtyBelow (blockOf key) else none) with
  | some below => (ofBytes ((below.drop (key % 64)).take 4)).setWidth 32 :: old
  | none => old

/-- The word a fetch returns: memory's, or any of the others (R192, D17). -/
def State.fetchWord (s : State) (m : Mapped) : Ins :=
  s.choose .fetchWord 0 (Memory.readWord s.mem (mappedKey m)) (s.otherWords m)

/-- The L1 instruction cache with a line for a block, at a free place (R79). -/
def State.fillL1I (s : State) (b : Nat) : List InsLine :=
  let set := s.drawNat .cacheSet 2 % l1iSets s.cfg
  let way := s.drawNat .cacheWay 2 % 4
  ⟨b, set, way⟩ :: s.cache.l1i.filter fun e => !(e.set == set && e.way == way)

/-- The caches after a cacheable fetch: one that misses in the L1 instruction cache allocates
there, and in the L2 cache where neither it nor the L1 data cache holds the block, with
`SCTLR_ELx.C` set (R187, R199, R226, R227). The state and place of the L2 line are free (log entry
60). -/
def State.fetchCaches (s : State) (m : Mapped) : Caches :=
  let b := blockOf (mappedKey m)
  if s.fetchUncached m || s.cache.l1i.any (fun e => e.block == b) then s.cache
  else
    let c := { s.cache with l1i := s.fillL1I b }
    if s.cachesOn then c.insertL2 (s.newL2Line b 4 m.attr.transient) else c

/-- The fetch is from a device: from a Device page, hence one that may be executed, or from an
address that the memory map gives to devices, the utility bus among them (R76, R186). -/
def State.fetchesDevice (s : State) (m : Mapped) : Bool :=
  m.attr.type.isDevice || s.onUtilityBus m ||
    s.cfg.deviceKeys.any fun p => p.1 < mappedKey m + 4 && mappedKey m < p.2

/-- The fetch at `pc` (R453, R455, R469). -/
def State.fetch (s : State) : Fetched :=
  if s.pc.extractLsb' 0 2 != 0 then .stop (.next s.pcAlignmentFault)
  else match s.translate s.pc .fetch with
    | .refused e => .stop (.refused e)
    | .fault s1 f => .stop (.next (s1.takeMmuFault true false false s.pc f))
    | .ok s1 m =>
      match s1.permissionFault m .fetch with
      | some f => .stop (.next (s1.takeMmuFault true false false s.pc f))
      | none =>
        if s1.fetchesDevice m then .stop (.refused .executableDevice)
        else if s1.aliasRefused m then .stop (.refused .pbhaAlias)
        else if s1.busError m 4 then .stop (.next s1.fetchAbort)
        else .word { s1.showPbha s.pc m with cache := s1.fetchCaches m } m (s1.fetchWord m)

/-- The breakpoint debug event of the instruction at `pc` (R551, R554). -/
def State.breakpointHit (s : State) : Bool :=
  (s.monitorDebug || s.haltingAllowed) && Config.breakpointMatch (s.debugInput s.pc 4 false false)

/-- A debug exception of class `ec` from a lower level, `ec + 1` from the same (R554). -/
def State.debugException (s : State) (ec : Nat) (iss : BitVec 25) : State :=
  s.takeSync s.debugTarget (if s.debugTarget = s.el then ec + 1 else ec) iss

/-- A word that branch target identification lets an indirect branch reach: hints of the `BTI` and
`PACI*SP` encodings, `BRK` and `HLT`; none is an instruction of the table (log entry 29). -/
def isLandingPad (w : Ins) : Bool :=
  (w &&& 0xFFFFF01F == 0xD503201F &&
    [25, 27, 34, 36, 38].contains (w.extractLsb' 5 7).toNat) ||
  w &&& 0xFFE0001F == 0xD4200000 || w &&& 0xFFE0001F == 0xD4400000

/-- What a breakpoint debug event does: the core halts where halting is allowed, else takes the
exception (R552, R555). -/
def State.breakpointTaken (s : State) : State :=
  if s.haltingAllowed then s.enterDebug else s.debugException 0x30 0b100010

/-- The checks between fetch and decode, in the order of R469: Breakpoint, Illegal Execution state,
Branch Target exception with `ISS = BTYPE` (log entry 29). -/
def State.preExecute (s : State) (m : Mapped) (w : Ins) : Option State :=
  if s.breakpointHit then some s.breakpointTaken
  else if s.pstate.il then some (s.takeSync s.syncTarget 0x0E 0)
  else if m.guarded && s.pstate.btype != 0 && !isLandingPad w then
    some (s.takeSync s.syncTarget 0x0D (s.pstate.btype.setWidth 25))
  else none

/-- Hint numbers that are allocated: the named ones of R275 (b), and the numbers of the `PAC`,
`AUT` and `XPAC` hints of the family (PRESUMED, log entry 49). -/
def allocatedHints : List Nat :=
  [0, 1, 2, 3, 4, 5, 6, 7, 8, 10, 12, 14, 16, 17, 18, 20, 24, 25, 26, 27, 28, 29, 30, 31, 32,
   34, 36, 38]

/-- A word of the hint space whose number is not allocated executes as a no-op (R275 (b), U24). -/
def isFreeHint (w : Ins) : Bool :=
  w &&& 0xFFFFF01F == 0xD503201F && !allocatedHints.contains (w.extractLsb' 5 7).toNat

/-! Software step (R554; log entry 28) -/

/-- Software step is active: `MDSCR_EL1.SS` [0] with debug exceptions enabled. -/
def State.stepping (s : State) : Bool := s.debugEnabled && bit (s.ctl .mdscr_el1) 0

/-- The state in which the next instruction runs: under software step `PSTATE.SS` is consumed. -/
def State.stepConsumed (s : State) : State :=
  if s.stepping then { s with pstate := { s.pstate with ss := false } } else s

end Sys2Proof.Machine
end

