-- ==== Sys2Proof/Machine/Reset.lean ====
section
/-! DEFINITION. Resets of a running machine (R97, R600 to R607) and the loss of state in Off mode
(R98, R577): what the spec states is set, what it leaves unspecified is a free value. -/

namespace Sys2Proof.Machine

/-- The resets: Cold; the reset that ends Emulated off, which keeps the debug registers (R576,
R578); Warm, which keeps debug, trace and RAS registers (R602). -/
inductive ResetKind where
  | cold
  | emulatedOff
  | warm
  deriving DecidableEq, Repr

/-- The register keeps its value over the reset (R602, R578). -/
def ResetKind.keeps (k : ResetKind) (r : SysReg) : Bool :=
  match k, r.info.group with
  | .warm, .debug | .warm, .trace | .warm, .ras | .emulatedOff, .debug => true
  | _, _ => false

/-- The bits of a register that the spec states after a reset, over free ones (R97, R71, R604,
R605, R495; D13 for the retention timer). The byte order bits of the three SCTLR are 0, since a
state with one set is refused (DESIGN CHOICE, log entry 63). -/
def ResetKind.stated (k : ResetKind) (c : Config) (r : SysReg) (w : Word) : Word :=
  match r with
  | .rmr_el3 => 1
  | .sctlr_el1 | .sctlr_el2 => w &&& ~~~0x3000000#64
  | .sctlr_el3 => w &&& ~~~0x3001005#64
  | .scr_el3 => withBit w 10 true
  | .hcr_el2 => withBit w 31 true
  | .vbar_el1 | .vbar_el2 | .vbar_el3 => w &&& ~~~0x7FF#64
  | .fpcr => w &&& ~~~0x9F00#64
  | .imp_cpupwrctlr_el1 => c.retentionTimer &&& ~~~1#64
  | .icc_igrpen0_el1 | .icc_igrpen1_el1 | .icc_igrpen1_el1_ns => 0
  | .trblimitr_el1 => withBit w 0 false
  | .trcprgctlr => withBit w 0 false
  | .erxstatus_el1 | .erxpfgctl_el1 => 0
  | .amevcntr00_el0 | .amevcntr01_el0 | .amevcntr02_el0 | .amevcntr03_el0 | .amevcntr10_el0
  | .amevcntr11_el0 | .amevcntr12_el0 => if k = .warm then w else 0
  | _ => w

/-- A system register after a reset. -/
def State.sysAfter (s : State) (k : ResetKind) (r : SysReg) : Word :=
  if k.keeps r then s.get r else k.stated s.cfg r (s.drawWord .resetValue (2000 + r.idx.val))

/-- The system register with a number. -/
def sysRegAt (i : Fin numSysRegs) : SysReg := SysReg.ofNat i.val

/-- PSTATE after a reset: EL3, AArch64, `SP_EL3`, everything masked; the other fields free
(R605). -/
def State.pstateAfter (s : State) : PState :=
  { resetPState with
    n := s.drawBool .resetValue 1000, z := s.drawBool .resetValue 1001
    c := s.drawBool .resetValue 1002, v := s.drawBool .resetValue 1003
    pan := s.drawBool .resetValue 1004, uao := s.drawBool .resetValue 1005
    dit := s.drawBool .resetValue 1006, tco := s.drawBool .resetValue 1007
    ssbs := s.drawBool .resetValue 1008
    btype := (s.drawWord .resetValue 1009).setWidth 2 }

/-- The vector and predicate registers after a reset: free (R97). -/
def State.vecAfter (s : State) : VecFile where
  v := Vector.ofFn fun i =>
    s.drawWord .resetValue (1100 + 2 * i.val) ++ s.drawWord .resetValue (1101 + 2 * i.val)
  p := Vector.ofFn fun i => (s.drawWord .resetValue (1200 + i.val)).setWidth 16
  ffr := (s.drawWord .resetValue 1220).setWidth 16

/-- The debug logic after a reset: a Warm reset, and the one that ends Emulated off, keep the
registers of the external debugger; a halt request, Debug state and the PMU snapshot are no debug
registers and are reset (R578, R602, C3). -/
def State.dbgAfter (s : State) (k : ResetKind) : DebugUnit :=
  if k = .cold then .initial
  else { s.dbg with request := false, halted := false, snapshot := [] }

/-- The buses after a reset: nothing is shown, but that a Warm reset keeps the poison attribute
(R96). -/
def State.busAfter (s : State) (k : ResetKind) : BusState :=
  ⟨0, 0, 0, 0, k == .warm && s.bus.poison, s.bus.reply, []⟩

/-- The trace unit after a reset: a Warm reset keeps it, but the last instructions before it might
not be traced (R97, R564). -/
def State.traceAfter (s : State) (k : ResetKind) : TraceUnit :=
  if k = .warm then
    { s.trace with fifo :=
        s.trace.fifo.take (s.trace.fifo.length - s.drawNat .trace 0 % (s.trace.fifo.length + 1)) }
  else .initial

/-- The throttle state after a reset: the spec gives no value for it, so the MPMM gear, its count of
events and the PDP level are free; the dispatch-block pin is an input (R94, R98, R585; log entry
40). -/
def State.throttleAfter (s : State) : Throttle where
  mpmmGear := Fin.ofNat 3 (s.drawNat .resetValue 1306)
  activity := s.drawNat .resetValue 1307
  pdpLevel := Fin.ofNat 3 (s.drawNat .resetValue 1308)
  dispatchBlock := s.throttle.dispatchBlock

/-- A reset (R600, R602): nothing is saved (R606); the caches are invalidated without cleaning, so
that dirty data is lost (R601 (e)); `GICCDISABLE` is sampled (R500). -/
def State.resetTo (s : State) (k : ResetKind) : State :=
  { s with
    x := Vector.ofFn fun i => s.drawWord .resetValue i.val
    sp := Vector.ofFn fun i => s.drawWord .resetValue (32 + i.val)
    pc := s.cfg.resetVector.setWidth 64
    pstate := s.pstateAfter
    vec := s.vecAfter
    sys := Vector.ofFn fun i => s.sysAfter k (sysRegAt i)
    unsynced := []
    mem := discardDirty s.mem (s.cache.l1d ++ s.cache.l2)
    monitor := .opened
    eventReg := s.drawBool .resetValue 1010
    sleep := ⟨.running, false, false, false⟩
    power := .on
    tlb := ⟨Config.freeTlb (2 * s.draws), Config.freeTlb (2 * s.draws + 1),
      Config.freeL2Tlb s.draws⟩
    cache := s.cache.invalidated
    mwb := .idle
    returnStack := []
    predictor := ⟨[], [], []⟩
    irq := { s.irq with serror := none, due := false }
    gic := ⟨[], [], [], []⟩
    gicDisabled := s.cfg.gicDisablePin
    ram := ⟨s.drawWord .resetValue 1302, s.draws, false, false⟩
    ras := if k = .warm then s.ras
      else ⟨false, false, (s.drawWord .resetValue 1303).setWidth 32, none⟩
    spe := ⟨s.drawNat .resetValue 1304, none⟩
    dbg := s.dbgAfter k
    osLock := if k = .cold then true else s.osLock
    trace := s.traceAfter k
    throttle := s.throttleAfter
    exclBudget := s.drawNat .resetValue 1305
    bus := s.busAfter k }

/-- Cold reset (R600, R601). -/
def State.coldReset (s : State) : State := s.resetTo .cold

/-- Warm reset (R602, R603). -/
def State.warmReset (s : State) : State := s.resetTo .warm

/-- The bytes that an uncorrected error leaves of a block: any (R493). -/
def State.corruptBytes (s : State) (i : Nat) : List Byte :=
  (List.range 64).map fun j => (s.drawWord .ramError (1000 + 64 * i + j)).setWidth 8

/-- Memory after the lines with an uncorrected error have been written back without a signal: each
block may be corrupted (R493). -/
def State.corrupted (s : State) (i : Nat) : List Nat → List Host.Cell → List Host.Cell
  | [], m => m
  | b :: rest, m => s.corrupted (i + 1) rest
      (if s.drawBool .ramError (100 + 2 * i) then Memory.writeBytes m (b * 64) (s.corruptBytes i) else m)

/-- The blocks with an uncorrected error that is deferred when their lines are cleaned: which of
them can be is free (R493, R614). -/
def State.deferred (s : State) : List Nat :=
  s.cache.bad.filter fun b => s.drawBool .ramError (101 + 2 * b)

/-- The caches cleaned and invalidated by hardware (R614); memory holds every value written, but
where a line held an uncorrected error: it is deferred, the block poisoned, or not signalled
(R493). -/
def State.cleanCaches (s : State) : State :=
  { s with
    mem := s.corrupted 0 (s.cache.bad.filter fun b => !s.deferred.contains b) s.mem
    poison := s.deferred ++ s.poison
    cache := s.cache.invalidated }

/-- Off mode: caches cleaned, then all state lost; what is left is what the Cold reset that leads
back to On gives (R98, R577, R614). -/
def State.powerOff (s : State) : State := { s.cleanCaches.resetTo .cold with power := .off }

/-- Emulated off mode: logic and RAMs stay on, the caches are cleaned and coherency left; the trace
outputs are as in Off mode (R578). -/
def State.emulateOff (s : State) : State :=
  { s.cleanCaches with
    power := .offEmulated
    trace := { s.trace with outputs := 0, trigger := false } }

end Sys2Proof.Machine
end

