-- ==== Sys2Proof/Machine/Agents.lean ====
section
/-! DEFINITION. What other observers of memory do to the core, and what the core does to memory on
no instruction's behalf: snoops, writes of other agents, broadcast maintenance, prefetches and
wrong-path fetches, the buffers of the SPE and the TRBE (R40, R41, R306, R526, R567, R569). -/

namespace Sys2Proof.Machine

/-! Waking the clock (R306, R573, R574) -/

/-- The core sleeps in WFI or WFE. -/
def State.asleep (s : State) : Bool := s.sleep.lowPower != .running

/-- A request that the core must serve: a sleeping core enables its clocks and leaves Full
retention, but does not wake (R306, R574). -/
def State.serve (s : State) : State :=
  if s.asleep then
    { s with
      sleep := { s.sleep with clockTemp := true, retentionExpired := false }
      power := if s.power = .fullRetention then .on else s.power }
  else s

/-- The core is off towards its functional interfaces (R577, R578). -/
def State.isOff (s : State) : Bool := s.power == .off || s.power == .offEmulated

/-! Other observers of memory (R200, R376) -/

/-- The block the monitor holds. -/
def State.monitorBlock (s : State) : Option Nat :=
  match s.monitor with
  | .opened => none
  | .exclusive tag ns => some (tag.toNat + (if ns then 2 ^ 34 else 0))

/-- Another agent takes blocks: the monitor on one of them opens, which is an event (R307, R376). -/
def State.loseBlocks (s : State) (taken : Nat → Bool) : State :=
  match s.monitorBlock with
  | some b => if taken b then { s with monitor := .opened, eventReg := true } else s
  | none => s

/-- The words below the Modified lines of some blocks, which a Non-cacheable fetch still sees when
another core takes the lines dirty (R182). -/
def Caches.wordsBelow (c : Caches) (taken : Nat → Bool) : List OldWord :=
  ((c.l1d ++ c.l2).filter fun e => taken e.block && e.mesi == .modified).flatMap fun e =>
    wordsOf false true (e.block * 64) e.below 16

/-- The old words when another agent takes dirty lines of some blocks over: what lies below the
lines, and the words that the instruction cache may hold, whose replacement has not been cleaned
(R182, R192). -/
def Caches.handedOver (c : Caches) (taken : Nat → Bool) : List OldWord :=
  let mark (w : OldWord) : OldWord :=
    if taken (blockOf w.key) && (c.dirtyBelow (blockOf w.key)).isSome then { w with unclean := true }
    else w
  c.wordsBelow taken ++ c.old.map mark

/-- The caches after other agents have taken blocks from this core: no line of them is left, and
one that goes while it is in the L1 data cache counts as an eviction (R490). -/
def Caches.taken (c : Caches) (taken : Nat → Bool) : Caches :=
  { c with
    l1d := c.l1d.filter fun e => !taken e.block
    l2 := c.l2.filter fun e => !taken e.block
    old := c.handedOver taken
    bad := c.bad.filter fun b => !taken b
    evictions := c.evictions + (c.l1d.filter fun e => taken e.block).length }

/-- Bytes of memory with their keys, as they are before another agent writes there. -/
def cellsAt (m : List Host.Cell) (key : Nat) : Nat → List Host.Cell
  | 0 => []
  | n + 1 => (key, Memory.read m key) :: cellsAt m (key + 1) n

/-- The bytes that loads of memory that is not shareable may still see when another agent writes:
those of blocks that this core holds (R168; log entry 61). -/
def State.olderAt (s : State) (key n : Nat) : List Host.Cell :=
  (cellsAt s.mem key n).filter fun p =>
    holdsBlock (s.cache.l1d ++ s.cache.l2) (blockOf p.1) || s.cache.older.any (·.1 == p.1)

/-- An old word marked as lying below a line that another core holds dirty. -/
def markBelow (key n : Nat) (w : OldWord) : OldWord :=
  if w.key < key + n && key < w.key + 4 then { w with below := true } else w

/-- The blocks that hold poison after another agent has written bytes: an uncorrected error in a
line that it took goes with the line, and stays in what the write does not replace; a block written
whole holds none (R487). -/
def State.poisonAfter (s : State) (key n : Nat) (taken : Nat → Bool) : List Nat :=
  (s.cache.bad.filter taken ++ s.poison).filter fun b => !(key ≤ b * 64 && b * 64 + 64 ≤ key + n)

/-- Another agent writes bytes: the lines leave this core's caches (R200, R376); until the agent
cleans its own line a Non-cacheable fetch may see the old words (R182). -/
def State.remoteWrite (s : State) (key : Nat) (bytes : List Byte) : State :=
  let taken (b : Nat) : Bool := key / 64 ≤ b && b * 64 < key + bytes.length
  let older := s.cache.older ++ s.olderAt key bytes.length
  let poison := s.poisonAfter key bytes.length taken
  let s1 := (s.serve.writeMem key bytes).loseBlocks taken
  let c := s1.cache.taken taken
  { s1 with
    poison := poison
    cache := { c with old := c.old.map (markBelow key bytes.length), older := older } }

/-- Software of another core cleans the line which that core held dirty: nothing older of it lies
below (R182), and it is clean (R192) unless this core holds a newer line dirty. -/
def State.remoteClean (s : State) (b : Nat) : State :=
  let here := (s.cache.dirtyBelow b).isSome
  let clean (w : OldWord) : OldWord :=
    if blockOf w.key = b then { w with below := false, unclean := w.unclean && here } else w
  { s with cache := { s.cache with
      old := (s.cache.old.map clean).filter fun w => w.held || w.below } }

/-- A line after a snoop that leaves it Shared. -/
def shareLine (b : Nat) (e : CacheLine) : CacheLine :=
  if e.block = b then { e with mesi := .shared, below := [] } else e

/-- A snoop of a block; its data stays where coherent observers see it (R200, R306). An uncorrected
error in a line that is handed over goes with it as poison (R487). -/
def State.snoop (s : State) (b : Nat) (invalidate : Bool) : State :=
  let s1 := s.serve
  let c := s1.cache
  let hit := if holdsBlock c.l1d b then 1 else 0
  let s2 := { s1 with poison := if c.bad.contains b then b :: s1.poison else s1.poison }
  if invalidate then
    ({ s2 with cache := { c.without b with
        old := c.handedOver (· == b), evictions := c.evictions + hit } }).loseBlocks (· == b)
  else { s2 with cache := { c with
      l1d := c.l1d.map (shareLine b), l2 := c.l2.map (shareLine b)
      old := c.handedOver (· == b)
      bad := c.bad.filter (· != b), evictions := c.evictions + hit } }

/-! Broadcast maintenance (R306, R526) -/

/-- A TLB entry that a broadcast TLB maintenance operation names. R526 does not say which regimes
and VMIDs an operation by address or by ASID is for: it covers the matching entries of every regime
and of every VMID (DESIGN CHOICE, log entry 56). -/
def tlbiCovers (sc : TlbiScope) (e : TlbEntry) : Bool :=
  match sc with
  | .all => true
  | .regime r => e.regime == r
  | .vmid v => e.regime.isEl10 && e.vmid == v
  | .asid a => e.regime.hasAsid && !e.global && e.asid == a
  | .va va asid =>
    field va e.logSize (49 - e.logSize) == field e.va e.logSize (49 - e.logSize) &&
      (match asid with
        | some a => e.global || e.asid == a
        | none => true)

/-- The uses of mappings that are forgotten with it: all of them, or those of one page. -/
def tlbiForgets (sc : TlbiScope) (u : PbhaUse) : Bool :=
  match sc with
  | .all => true
  | .va va _ => u.page == va.toNat / 4096
  | _ => false

/-- A broadcast TLB maintenance operation is served. -/
def State.tlbMaintenance (s : State) (sc : TlbiScope) : State :=
  let s1 := s.serve
  { s1 with
    tlb := ⟨s1.tlb.l1i.filter fun e => !tlbiCovers sc e, s1.tlb.l1d.filter fun e => !tlbiCovers sc e,
      s1.tlb.l2.filter fun e => !tlbiCovers sc e.entry⟩
    bus := { s1.bus with uses := s1.bus.uses.filter fun u => !tlbiForgets sc u } }

/-- A broadcast instruction cache maintenance operation is served, for one block or for all: the
lines go; the old words may be seen until an ISB, and for ever where software has not cleaned their
data: in a dirty line, or marked unclean (R192). -/
def State.icacheMaintenance (s : State) (block : Option Nat) : State :=
  let s1 := s.serve
  let named (b : Nat) : Bool := match block with
    | some x => x == b
    | none => true
  let mark (w : OldWord) : OldWord :=
    if named (blockOf w.key) && (s1.cache.dirtyBelow (blockOf w.key)).isNone && !w.below &&
        !w.unclean then
      { w with invalidated := true }
    else w
  { s1 with cache := { s1.cache with
      l1i := s1.cache.l1i.filter fun e => !named e.block
      old := s1.cache.old.map mark } }

/-! What the core does ahead of its instructions (R144, R184, R220, R347) -/

/-- A speculative fetch or prefetch: it fills TLBs and caches, takes no exception and updates no
descriptor; Device memory is not touched (R221). -/
def State.speculate (s : State) (va : Word) (fetch : Bool) : State :=
  if s.power ≠ .on then s
  else if fetch then
    match s.translateAhead va .fetch with
    | .ok s1 m =>
      if (s1.permissionFault m .fetch).isSome || s1.fetchesDevice m || s1.aliasRefused m then s1
      else { s1.showPbha va m with cache := s1.fetchCaches m }
    | .fault s1 _ => s1
    | .refused _ => s
  else
    match s.translateAhead va .read with
    | .ok s1 m =>
      if (s1.permissionFault m .read).isSome || s1.aliasRefused m then s1
      else if s1.isCached m then
        { s1.showPbha va m with cache := s1.touchCaches (blockOf (mappedKey m)) false m.attr }
      else s1
    | .fault s1 _ => s1
    | .refused _ => s

/-! The buffers that the core writes on no instruction's behalf (R567, R569) -/

/-- The bytes lie in a buffer and in one block. -/
def inBuffer (base limit va : Word) (bytes : List Byte) : Bool :=
  base.toNat ≤ va.toNat && va.toNat + bytes.length ≤ limit.toNat &&
    va.toNat % 64 + bytes.length ≤ 64 && !bytes.isEmpty

/-- Writes bytes at a virtual address, through the MMU, with its PBHA value on the bus (R173); one
that faults is not made. What refuses the access of an instruction refuses it too: conflicting TLB
entries (R165), mismatched aliases (R178), an executable Device page (R186). -/
def State.bufferWrite (s : State) (va : Word) (bytes : List Byte) : Out :=
  match s.translate va .write with
  | .refused e => .refused e
  | .fault s1 _ => .next s1
  | .ok s1 m =>
    if (s1.permissionFault m .write).isSome then .next s1
    else if s1.aliasRefused m then .refused .pbhaAlias
    else .next (((s1.showPbha va m).store m bytes).ownStore m.pa m.ns)

/-- A write of a buffer, and what its unit does when the write is over. -/
def State.afterBufferWrite (s : State) (va : Word) (bytes : List Byte) (f : State → State) : Out :=
  match s.bufferWrite va bytes with
  | .next t => .next (f t)
  | o => o

/-- The SPE writes the record of its sample between `PMBPTR_EL1` and the limit of `PMBLIMITR_EL1`,
with `E` [0] set, while the core is on (R569, R573, R577, R578; log entry 41). -/
def State.speWrite (s : State) (va : Word) (bytes : List Byte) : Out :=
  let limit := s.ctl .pmblimitr_el1
  if s.isOn && s.cfg.spePresent && s.spe.sample.isSome && bit limit 0 &&
      inBuffer (s.ctl .pmbptr_el1) (limit &&& ~~~0xFFF#64) va bytes then
    s.afterBufferWrite va bytes fun t =>
      { t.putByUnit .pmbptr_el1 (fun _ => va + BitVec.ofNat 64 bytes.length) with
        spe := { t.spe with sample := none } }
  else .next s

/-- The TRBE is enabled: `TRBLIMITR_EL1.E`, bit 0 (R567, R568; place PRESUMED, log entry 12). -/
def State.trbeOn (s : State) : Bool := bit (s.ctl .trblimitr_el1) 0

/-- The TRBE writes the packets of the first elements it has accepted, between `TRBBASER_EL1` and
the limit of `TRBLIMITR_EL1`, while it is enabled and the core is on; packets may stand for no
element (R567, R573, R577, R578; log entry 41). -/
def State.trbeWrite (s : State) (va : Word) (elems : Nat) (bytes : List Byte) : Out :=
  if s.isOn && s.trbeOn && elems ≤ s.trace.accepted.length &&
      inBuffer (s.ctl .trbbaser_el1 &&& ~~~0xFFF#64) (s.ctl .trblimitr_el1 &&& ~~~0xFFF#64) va
        bytes then
    s.afterBufferWrite va bytes fun t =>
      { t with trace := { t.trace with accepted := t.trace.accepted.drop elems } }
  else .next s

/-- What leaves the trace FIFO: to the trace bus with the TRBE disabled; else the TRBE accepts it,
discards it, or rejects it, so that the FIFO keeps it, and which is free (R561, R562, R567). -/
def State.traceDrain (s : State) : State :=
  let t := { s.trace with fifo := [], overflow := false }
  if !s.isOn then s
  else if !s.trbeOn then { s with trace := { t with sent := s.trace.sent ++ s.trace.fifo } }
  else match s.drawNat .trbeMode 0 % 3 with
    | 0 => { s with trace := { t with accepted := s.trace.accepted ++ s.trace.fifo } }
    | 1 => { s with trace := t }
    | _ => s

/-- Micro-operations pass the SPE down-counter, which starts again at zero; one is then the sample,
with its events and its data source (R92, R569). A core that is not on dispatches none (R573, R577).
-/
def State.dispatched (s : State) (uops : Nat) : State :=
  if !s.cfg.spePresent || !s.isOn then s
  else if s.spe.countdown ≤ uops then
    { s with spe :=
      ⟨s.drawNat .counter 4, some ⟨s.pc, (s.drawWord .trace 4).setWidth 32,
        (s.drawWord .trace 5).setWidth 8⟩⟩ }
  else { s with spe := { s.spe with countdown := s.spe.countdown - uops } }

end Sys2Proof.Machine
end

