-- ==== Sys2Proof/Machine/ExternalDebug.lean ====
section
/-! DEFINITION. The external debugger: the debug APB interface, the PMU snapshot, halting, altering
and restarting the core (R40, R530, R535, R551, R555 to R557, R577; what the spec does not give of
the registers is log entry 42). -/

namespace Sys2Proof.Machine

/-! The debug APB interface (R306, R556, R557) -/

/-- The register has a memory-mapped view: debug, performance monitors and trace; those of the TRBE
and of the SPE have none (R557, R568). -/
def onApb (r : SysReg) : Bool :=
  match r with
  | .trblimitr_el1 | .trbbaser_el1 => false
  | _ => r.info.group == .debug || r.info.group == .pmu || r.info.group == .trace

/-- The answer to an access on the utility bus or the debug APB. -/
def State.answer (s : State) (a : BusReply) : State := { s with bus := { s.bus with reply := a } }

/-- The register is one of the Performance Monitors. -/
def ofPmu (r : ApbReg) : Bool :=
  match r with
  | .system r => r.info.group == .pmu
  | .snapshot _ => true
  | .edscr | .dtrrx | .dtrtx | .osLock => false

/-- Accesses to the registers are refused while the OS Lock is set, but to the lock itself (R556),
and to the Performance Monitors while External Performance Monitors Access Disable, `MDCR_EL3.EPMAD`
[21], is set (R65, R535; the place and the answer are log entry 42). -/
def State.apbLocked (s : State) (r : ApbReg) : Bool :=
  (s.osLock && r != .osLock) || (ofPmu r && bit (s.ctl .mdcr_el3) 21)

/-- `EDSCR`: `HDE` [14], `STATUS` [5:0], `TXfull` [29], `RXfull` [30]. -/
def State.edscr (s : State) : Word :=
  flagAt s.dbg.hde 14 ||| (if s.dbg.halted then 0x13 else 0x02) |||
    flagAt s.dbg.txFull 29 ||| flagAt s.dbg.rxFull 30

/-- The value of a register of the interface. A PMU counter or event type register beyond
`NUM_PMU_COUNTERS`, which MRS and MSR find absent (R65), is here a word that is stored and read
back (DESIGN CHOICE, log entry 42). -/
def State.apbValue (s : State) (r : ApbReg) : Word :=
  match r with
  | .system r => if onApb r then s.readSys r else 0
  | .edscr => s.edscr
  | .dtrrx => s.dbg.rx.setWidth 64
  | .dtrtx => s.dbg.tx.setWidth 64
  | .osLock => flagAt s.osLock 1
  | .snapshot i => s.dbg.snapshot.getD i 0

/-- A read over the debug APB: an error while the core is off or the OS Lock is set; reading the
transmit register empties it (R551, R556, R577). -/
def State.apbRead (s : State) (r : ApbReg) : State :=
  if s.power = .off then s.answer .unavailable
  else if s.apbLocked r then s.serve.answer .locked
  else
    let t := s.serve.answer (.data (s.apbValue r))
    if r = .dtrtx then { t with dbg := { t.dbg with txFull := false } } else t

/-- The effect of a write to a register of the interface. -/
def State.apbSet (s : State) (r : ApbReg) (w : Word) : State :=
  match r with
  | .system r => if onApb r then s.writeSys r w else s
  | .edscr => { s with dbg := { s.dbg with hde := bit w 14 } }
  | .dtrrx => { s with dbg := { s.dbg with rx := w.setWidth 32, rxFull := true } }
  | .dtrtx => { s with dbg := { s.dbg with tx := w.setWidth 32 } }
  | .osLock => { s with osLock := bit w 0 }
  | .snapshot _ => s

/-- A write over the debug APB. -/
def State.apbWrite (s : State) (r : ApbReg) (w : Word) : State :=
  if s.power = .off then s.answer .unavailable
  else if s.apbLocked r then s.serve.answer .locked
  else (s.serve.apbSet r w).answer .written

/-- A PMU snapshot: the counters, the overflow status, the context and the program counter (R530,
R536); a core that is not on takes none (R573, R577, R578). -/
def State.pmuSnapshot (s : State) : State :=
  if !s.isOn then s
  else { s with dbg := { s.dbg with snapshot :=
      [s.ctl .pmccntr_el0, s.ctl .pmovsset_el0, s.ctl .contextidr_el1, s.pc] ++
        (pmevcntrs.take s.cfg.pmuCounters.count).map s.ctl } }

/-! Debug state (R555) -/

/-- The debugger asks for a halt, which the core enters between two instructions; a sleeping core,
also one in Full retention, wakes for it (R307, R574). -/
def State.debugHalt (s : State) : State :=
  if s.haltingAllowed && (s.power == .on || s.power == .fullRetention) then { s with dbg := { s.dbg with request := true } }
  else s

/-- A process state that a debugger may set: AArch64, and `SP_EL0` at EL0 (R3, R514). -/
def legalPState (p : PState) : PState :=
  { p with nRW := false, sp := p.sp && !(p.el == 0) }

/-- The debugger alters the halted core. -/
def State.debugAlter (s : State) (w : DebugWrite) : State :=
  if !s.dbg.halted then s
  else match w with
    | .general r v => s.setX r v
    | .stackPointer i v => { s with sp := s.sp.set i.val v }
    | .pc v => { s with pc := v }
    | .pstate p => { s with pstate := legalPState p }
    | .vector i v => { s with vec := { s.vec with v := s.vec.v.set i.val v } }
    | .predicate i v => { s with vec := { s.vec with p := s.vec.p.set i.val v } }
    | .ffr v => { s with vec := { s.vec with ffr := v } }
    | .system r v =>
      { s.writeSys r v with pstate := legalPState (s.writeSys r v).pstate }

/-- The debugger restarts the core: it goes on at `pc`, instructions being fetched anew. -/
def State.debugRestart (s : State) : State :=
  if s.dbg.halted then { s.contextSync with dbg := { s.dbg with halted := false } } else s

end Sys2Proof.Machine
end

