-- ==== Sys2Proof/Machine/Env.lean ====
section
/-! DEFINITION. What the agents outside the core do between two instructions: one event of `inbox`
at a time (R40, R41, D25; log entry 22). The utility bus and the power modes stand here. -/

namespace Sys2Proof.Machine

/-! The utility bus (R520 to R524, R545, R577) -/

/-- A utility-bus read: zero for everything that is not documented and in the wrong Security state;
an error while the core is off. -/
def State.utilityRead (s : State) (address : BitVec 40) (rightState : Bool) : State :=
  if s.isOff then s.answer .unavailable
  else match (if rightState then s.utilityReg address.toNat else none) with
    | some (r, _) => s.serve.answer (.data (s.ctl r))
    | none => s.serve.answer (.data 0)

/-- A utility-bus write: to the MPMM registers; ignored elsewhere and in the wrong Security state
(R50, R51, R522, D25). -/
def State.utilityWrite (s : State) (address : BitVec 40) (rightState : Bool) (w : Word) : State :=
  if s.isOff then s.answer .unavailable
  else match (if rightState then s.utilityReg address.toNat else none) with
    | some (r, true) => (s.serve.putThrough r none (s.serve.legalise r w)).answer .written
    | _ => s.serve.answer .written

/-! Power modes (R492, R573 to R579, R614) -/

/-- A RAS interrupt output is asserted, which blocks powerdown (R492). -/
def State.rasActive (s : State) : Bool := s.ras.faultIrq || s.ras.errIrq

/-- The powerdown sequence has run: WFI under `CORE_PWRDN_EN` (R576, R614). -/
def State.readyForPowerdown (s : State) : Bool :=
  s.sleep.lowPower == .wfi && s.sleep.wakeMasked

/-- The conditions of Full retention mode (R573). -/
def State.retentionReady (s : State) : Bool :=
  s.asleep && s.sleep.retentionExpired && !s.sleep.clockTemp

/-- The automatic clean of a powerdown meets the lines with an uncorrected error: each is detected,
deferred or not, and recorded where errors are reported (R493, R494). -/
def State.cleanDetects (s : State) : State :=
  s.cache.bad.foldl (fun t b =>
    t.recordError (if s.deferred.contains b then .deferred else .uncorrected)) s

/-- A powerdown whose sequence has run. It is denied while a RAS interrupt is asserted (R492). An
error that the clean meets and that raises one stops it: the core stays powered with its software
inactive (R494; what is cleaned by then is log entry 39). Where the outputs are disabled the core
goes off, and the record with it (R493). -/
def State.powerDown (s : State) (off : State → State) : Out :=
  if !s.readyForPowerdown then .refused .illegalPowerMode
  else if s.rasActive then .next s
  else if s.cleanDetects.rasActive then .next s.cleanDetects
  else .next (off s)

/-- A request of the PPU: the transitions of R576, every other one refused (U1, U2). It enables the
clocks of a sleeping core no more than a reset does: R41 says that each of its events does, R88 and
R306 name only snoops, maintenance, utility bus, GIC and debug accesses (`State.serve`), which the
model follows (DESIGN CHOICE, log entry 38). -/
def State.ppuRequest (s : State) (mode : PowerMode) : Out :=
  match s.power, mode with
  | _, .debugRecovery => .refused .debugRecovery
  | .off, .on => .next s.coldReset
  | .offEmulated, .on => .next (s.resetTo .emulatedOff)
  | .on, .off => s.powerDown State.powerOff
  | .on, .offEmulated => s.powerDown State.emulateOff
  | .on, .fullRetention =>
    if s.retentionReady then .next { s with power := .fullRetention }
    else .refused .illegalPowerMode
  | .on, .on | .off, .off | .offEmulated, .offEmulated | .fullRetention, .fullRetention => .next s
  | _, _ => .refused .illegalPowerMode

/-- The Warm reset signal (R580), which is taken in every power mode (R606). A core that is off, or
behaves as if it were, is reset and stays in its mode: only a Cold reset or the PPU leads out of it
(R98, R576 to R578; log entry 39). -/
def State.warmResetSignal (s : State) : Out :=
  match s.power with
  | .on | .warmReset | .fullRetention => .next { s with power := .warmReset }
  | .off | .offEmulated => .next { s.warmReset with power := s.power }
  | .debugRecovery => .refused .debugRecovery

/-! Events -/

/-- An interrupt arrives at the CPU interface. It stays pending until it is acknowledged: one of a
timer is not withdrawn when the output of the timer deasserts (DESIGN CHOICE, log entry 52). -/
def State.forward (s : State) (i : GicInt) : State :=
  { s with gic := { s.gic with pending := i :: s.gic.pending } }

/-- The effect, where the keys up to `limit` exist (R74, R75). -/
def State.within (s : State) (limit : Nat) (f : State → State) : Out :=
  if limit ≤ memKeyLimit then .next (f s) else .fault .addressOutsideMap

/-- One event of the agents outside the core. The write of an allocation tag leaves the monitor on
its block: R376 names only actions on data and on the line (DESIGN CHOICE, log entry 58). -/
def handleEvent (e : EnvEvent) (s : State) : Out :=
  match e with
  | .pins irq fiq virq vfiq =>
    .next { s with irq := { s.irq with irq := irq, fiq := fiq, virq := virq, vfiq := vfiq } }
  | .gicForward i => .next (s.forward i)
  | .timerInterrupt t i => .next (if s.timerAsserted t then s.forward i else s)
  | .serror iss => .next (s.pendWith (legalSError iss))
  | .event => .next { s with eventReg := true }
  | .eventStream => .next { s with eventReg := s.eventReg || bit (s.ctl .cntkctl_el1) 2 }
  | .counter n =>
    .next { s with sysCount :=
      if s.sysCount.toNat + n < 2 ^ 64 then s.sysCount + BitVec.ofNat 64 n else s.sysCount }
  | .dispatched uops => .next (s.dispatched uops)
  | .speWrite va bytes => s.speWrite va bytes
  | .trbeWrite va n bytes => s.trbeWrite va n bytes
  | .remoteWrite key bytes => s.within (key + bytes.length) fun t => t.remoteWrite key bytes
  | .remoteClean b => .next (s.remoteClean b)
  | .tagWrite g tag =>
    s.within (16 * (g + 1)) fun t => { t with tags := Memory.write t.tags g (tag &&& 0xF) }
  | .snoop b inv => .next (s.snoop b inv)
  | .tlbMaintenance sc => .next (s.tlbMaintenance sc)
  | .icacheMaintenance b => .next (s.icacheMaintenance b)
  | .speculate va fetch => .next (s.speculate va fetch)
  | .utilityRead a ok => .next (s.utilityRead a ok)
  | .utilityWrite a ok w => .next (s.utilityWrite a ok w)
  | .gicAccess => .next s.serve
  | .apbRead r => .next (s.apbRead r)
  | .apbWrite r w => .next (s.apbWrite r w)
  | .pmuSnapshot => .next s.pmuSnapshot
  | .debugHalt => .next s.debugHalt
  | .debugAlter w => .next (s.debugAlter w)
  | .debugRestart => .next s.debugRestart
  | .clockQuiet => .next { s with sleep := { s.sleep with clockTemp := false } }
  | .retentionTimer => .next { s with sleep := { s.sleep with retentionExpired := s.asleep } }
  | .ppu mode => s.ppuRequest mode
  | .coldReset => .next s.coldReset
  | .warmReset => s.warmResetSignal
  | .ramError ram bits b data => s.within (b * 64 + 64) fun t => t.ramError ram bits b data
  | .injectionClock n => .next (s.injectionClock n)
  | .traceDrain => .next s.traceDrain
  | .dispatchBlock on => .next { s with throttle := { s.throttle with dispatchBlock := on } }
  | .throttle gear activity pdp =>
    .next { s with throttle := ⟨gear, activity, pdp, s.throttle.dispatchBlock⟩ }

end Sys2Proof.Machine
end

