-- ==== Sys2Proof/Machine/Run.lean ====
section
/-! DEFINITION. What one step does: an event of the agents outside, or, in the On mode, waking or
sleeping on, an asynchronous exception, or one instruction (R40, R469, R473, R587). What executes an
instruction is marked noncomputable for the reason Syntax.lean gives. -/

namespace Sys2Proof.Machine

/-- What every step begins with: the counters that run come further, the errors that evictions have
met and an injection whose access has been made are reported, and the free values of the step get a
new draw number. -/
def State.tick (s : State) : State :=
  { s.count.meetEvicted.fireInjection with draws := s.draws + 1 }

/-- A decoded word is executed; a word without a row is refused, but for an unallocated hint (R261,
R275). -/
noncomputable def State.execWord (s : State) (w : Ins) : Out :=
  match decodeWord w with
  | .ok i => exec i s
  | .error .shouldBeOne => .refused .constrainedUnpredictable
  | .error _ => if isFreeHint w then s.advance else .refused .archA64

/-- One instruction: fetch, the checks before execution, execution (R40, R469). -/
noncomputable def State.runInstruction (s : State) : Out :=
  match s.fetch with
  | .stop o => o
  | .word s1 m w =>
    match s1.preExecute m w with
    | some t => .next t
    | none => s1.stepConsumed.execWord w

/-- The awake core: a pending asynchronous exception first, in any order among several; then the
Software Step exception; then one instruction (R469, R473). -/
noncomputable def State.runAwake (s : State) : Out :=
  match s.takeableNow with
  | k :: rest => .next (s.takeAsync (s.choose .asyncOrder 0 k rest) s.pc)
  | [] =>
    if s.stepping && !s.pstate.ss then .next (s.debugException 0x32 0)
    else s.runInstruction

/-- The sleeping core: it wakes and completes the WFI or WFE, an event that woke a WFE being
consumed; or enters Full retention mode; or sleeps on (R303, R305, R573, R574). -/
def State.runAsleep (s : State) : Out :=
  if s.wakes then
    State.advance { s with
      sleep := ⟨.running, false, false, false⟩
      power := .on
      eventReg := if s.sleep.lowPower = .wfe then false else s.eventReg }
  else if s.retentionReady then .next { s with power := .fullRetention }
  else .next s

/-- A Warm reset requested through `RMR_EL3.RR` may happen at any step (R604). -/
def State.resetRequested (s : State) : Bool := bit (s.get .rmr_el3) 1 && s.drawBool .rmrReset 0

/-- The core in its power mode: off, nothing happens; in Full retention it can only wake; a Warm
reset ends; else it runs, unless the dispatch block holds it or a debugger has halted it (R555, R573
to R580, R587). A sleeping core ends its WFI or WFE before it obeys a halt request, and does not
obey one while WFI has masked the wake-up events (R304, R307, R615). A state with a big-endian byte
order is refused (R250, D1). R587 does not say whether a WFI or WFE dispatched before the dispatch
block completes under it: in the On mode the sleeping core is held, in Full retention a wake-up
completes it (DESIGN CHOICE, log entry 38). -/
noncomputable def State.run (s : State) : Out :=
  match s.power with
  | .off | .offEmulated => .next s
  | .debugRecovery => .refused .debugRecovery
  | .warmReset => .next s.warmReset
  | .fullRetention => if s.asleep then s.runAsleep else .next { s with power := .on }
  | .on =>
    if s.throttle.dispatchBlock || s.dbg.halted then .next s
    else if s.bigEndian then .refused .bigEndian
    else if s.resetRequested then .next { s with power := .warmReset }
    else if s.asleep then s.runAsleep
    else if s.haltPending then .next s.enterDebug
    else s.runAwake

/-- One step: the next event of the agents outside the core, else the core. -/
noncomputable def State.runOrEvent (s : State) : Out :=
  match s.inbox with
  | e :: rest => handleEvent e { s.tick with inbox := rest }
  | [] => s.tick.run

/-- Where the next instruction is fetched: the key its address translates to, or the address itself
where it does not translate. -/
def State.fetchKey (s : State) : Nat :=
  match s.translate s.pc .fetch with
  | .ok _ m => mappedKey m
  | _ => memKey (s.pc.setWidth 40) (!s.secure)

/-- A word placed where the next step fetches, with the core awake and no event before it. -/
def State.placeWord (s : State) (w : Ins) : State :=
  { s with
    mem := Memory.writeLE s.mem s.fetchKey 4 (w.setWidth 128)
    cache := { s.cache with old := s.cache.old.filter fun p => p.key != s.fetchKey }
    dbg := { s.dbg with request := false, halted := false }
    inbox := []
    power := .on
    sleep := { s.sleep with lowPower := .running }
    throttle := { s.throttle with dispatchBlock := false } }

end Sys2Proof.Machine
end

