-- ==== Sys2Proof/Machine/Step.lean ====
section
/-! DEFINITION. The step of the machine, and the placing of an instruction where it fetches. -/

namespace Sys2Proof.Machine

/-- One step of the machine. -/
noncomputable def step (s : State) : Host.Outcome State Fault Refusal := s.runOrEvent

/-- The state with the instruction whose bits are `w` stored where the next step fetches (log entry
23). -/
def State.withFetchWord (s : State) (nbits w : Nat) : State :=
  s.placeWord (BitVec.ofNat 32 (w % 2 ^ nbits))

end Sys2Proof.Machine
end

