-- ==== Sys2Proof/Safety.lean ====
section
/-! DEFINITION. What a safe run is: it meets no fault and no refusal. And the terms the statements
use: when a data access completes, what an instruction keeps, what an exception entry leaves, which
steps keep the error record, and the invariants of a step. -/

namespace Sys2Proof

/-- A step of this state answers a next state. -/
def Machine.State.canStep (s : Machine.State) : Prop := ∃ t, Machine.step s = .next t

/-- `n` steps from a state, each of which answers a next state. -/
def Machine.safeFor : Nat → Machine.State → Prop
  | 0, _ => True
  | n + 1, s => ∃ t, Machine.step s = .next t ∧ Machine.safeFor n t

namespace Machine

/-- `pc + 4` does not overflow (R44). -/
def State.hasNext (s : State) : Prop := s.pc.toNat + 4 < 2 ^ 64

/-! When a data access completes (R151, R251, R456) -/

/-- The checks on the address before translation pass. -/
structure AddressOk (s : State) (r : Req) : Prop where
  spAligned : r.spBase = true → s.spMisaligned = false
  aligned : r.aligned = true → r.va.toNat % r.size = 0
  littleEndian : s.bigEndian = false

/-- The address translates for this kind of access, and the access is permitted; `s1` is the state
after the translation and `m` the mapping. -/
structure Granted (s : State) (r : Req) (k : AccessKind) (s1 : State) (m : Mapped) : Prop where
  translated : s.translate r.va k = .ok s1 m
  permitted : s1.permissionFault m k = none

/-- Nothing stops the access once it is translated: no mismatched PBHA alias with a meaning, no
mismatched allocation tag, no watchpoint. -/
structure Unhindered (s : State) (r : Req) (m : Mapped) : Prop where
  neutral : s.cfg.pbhaNeutral = true ∨ s.aliasPbha m = []
  untagged : s.tagFault r m = false
  unwatched : s.watchpointHit r = false

/-! What an instruction keeps -/

/-- General registers outside `dst`, stack pointers, vector registers and system registers are
unchanged, and so is PSTATE but for `BTYPE`. -/
structure KeepsRegs (s t : State) (dst : List Reg) (btype : BitVec 2) : Prop where
  general : ∀ q : Reg, q ∉ dst → t.xr q = s.xr q
  pointers : t.sp = s.sp
  pstate : t.pstate = { s.pstate with btype := btype }
  vectors : t.vec = s.vec
  special : t.sys = s.sys

/-- What a store to the utility bus keeps: as `KeepsRegs`, but for the two registers of this core
that it may write there, those of MPMM (R50, R51, R76). -/
structure KeepsRegsOnBus (s t : State) (dst : List Reg) (btype : BitVec 2) : Prop where
  general : ∀ q : Reg, q ∉ dst → t.xr q = s.xr q
  pointers : t.sp = s.sp
  pstate : t.pstate = { s.pstate with btype := btype }
  vectors : t.vec = s.vec
  special : ∀ r, r ≠ .imp_cpuppmcr_el3 → r ≠ .imp_cpumpmmcr_el3 → t.get r = s.get r

/-- Every byte of memory reads as before. -/
def KeepsMem (s t : State) : Prop := ∀ k, Memory.read t.mem k = Memory.read s.mem k

/-- Every byte outside the `n` bytes at `key` reads as before. -/
def KeepsMemOutside (s t : State) (key n : Nat) : Prop :=
  ∀ k, k < key ∨ key + n ≤ k → Memory.read t.mem k = Memory.read s.mem k

/-- The bytes of a register value, the least significant first, stand at `key` (R250). -/
def HoldsBytes (s : State) (key n : Nat) (v : Word) : Prop :=
  ∀ i < n, Memory.read s.mem (key + i) = (v >>> (8 * i)).setWidth 8

/-- What a register reads as after `v` is written to it: 31 is the zero register (R43). -/
def valueOf (r : Reg) (v : Word) : Word := if r = 31 then 0 else v

/-- The state right after an instruction that only advances. -/
def State.advanced (s : State) : State :=
  { s with pc := s.pc + 4, pstate := { s.pstate with btype := 0 } }

/-- Registers that hold exactly what is written to them and read back as they are: those that an
exception saves into, the translation table registers, the thread and context identifiers. -/
def storedRegs : List SysReg :=
  [.spsr_el1, .spsr_el2, .spsr_el3, .elr_el1, .elr_el2, .elr_el3, .esr_el1, .esr_el2, .esr_el3,
   .far_el1, .far_el2, .far_el3, .hpfar_el2, .ttbr0_el1, .ttbr1_el1, .tcr_el1, .ttbr0_el2,
   .ttbr1_el2, .tcr_el2, .ttbr0_el3, .tcr_el3, .vttbr_el2, .vtcr_el2, .contextidr_el1, .sctlr_el1,
   .sctlr_el2, .sctlr_el3, .cpacr_el1, .cptr_el2, .cptr_el3, .mdcr_el2, .mdcr_el3]

/-! Taking an exception (R464) -/

/-- `t` is `s` after a synchronous exception of the instruction at `pc`, taken to level `el` with
the syndrome `esr`: the instruction itself has changed no register and no memory. -/
structure TookSync (s t : State) (el : EL) (esr : Word) : Prop where
  status : t.get (spsrOf el) = packPState s.pstate
  ret : t.get (elrOf el) = s.pc
  syndrome : t.get (esrOf el) = esr
  vector : t.pc = s.vectorAddress el .sync
  handler : t.pstate = s.handlerPState el
  general : t.x = s.x
  pointers : t.sp = s.sp
  vectors : t.vec = s.vec
  memory : t.mem = s.mem

/-- The core runs its next instruction in this step: no event of an agent outside comes before it,
the core is on, awake and not held or halted, its byte order is little-endian, and no exception or
reset comes first. -/
structure RunsNext (s : State) : Prop where
  noEvent : s.inbox = []
  on : s.power = .on
  free : s.throttle.dispatchBlock = false
  running : s.dbg.halted = false
  noHalt : s.dbg.request = false
  littleEndian : s.tick.bigEndian = false
  noReset : s.tick.resetRequested = false
  awake : s.asleep = false
  noAsync : s.tick.takeableNow = []
  noStep : s.tick.stepping = false ∨ s.pstate.ss = true

/-! Steps that keep the error record (R486) -/

/-- An event that may clear the error record: a Cold reset, a request of the PPU to go to On, which
resets, and a debugger's write of `ERXSTATUS_EL1`. -/
def clearsErrorRecord : EnvEvent → Bool
  | .coldReset | .ppu .on | .debugAlter (.system .erxstatus_el1 _) => true
  | _ => false

/-- An instruction that may clear the error record: an MSR of `ERXSTATUS_EL1`. -/
def State.clearsRecord (s : State) (i : Instr) : Prop :=
  ∃ e rt, i = .msr e rt ∧ s.cfg.regAt e = some .erxstatus_el1

/-- The next step neither handles an event nor runs an instruction that may clear the error
record. -/
structure KeepsRecord (s : State) : Prop where
  event : ∀ e ∈ s.inbox.head?, clearsErrorRecord e = false
  instr : s.inbox = [] → ∀ s1 m w i, s.tick.fetch = .word s1 m w → decodeWord w = .ok i →
    ¬ s.clearsRecord i

/-- No interrupt output of the RAS unit goes from asserted to deasserted (R486). -/
structure StaysRaised (s t : State) : Prop where
  fault : s.ras.faultIrq = true → t.ras.faultIrq = true
  recovery : s.ras.errIrq = true → t.ras.errIrq = true

/-! Invariants of a step -/

/-- The bits that the spec fixes: `SCR_EL3.RW`, `HCR_EL2.RW` and `RMR_EL3.AA64` are 1, the low 11
bits of the vector bases 0, the trap enables of FPCR 0 (R71, R433, R465, R604). -/
structure FixedBits (s : State) : Prop where
  scr : bit (s.get .scr_el3) 10 = true
  hcr : bit (s.get .hcr_el2) 31 = true
  rmr : bit (s.get .rmr_el3) 0 = true
  vbar1 : s.get .vbar_el1 &&& 0x7FF#64 = 0
  vbar2 : s.get .vbar_el2 &&& 0x7FF#64 = 0
  vbar3 : s.get .vbar_el3 &&& 0x7FF#64 = 0
  fpcr : s.get .fpcr &&& 0x9F00#64 = 0

/-- A legal mode: AArch64, and at EL0 the stack pointer is SP_EL0 (R3, R514). -/
structure LegalMode (s : State) : Prop where
  aarch64 : s.pstate.nRW = false
  el0Stack : s.pstate.el = 0 → s.pstate.sp = false

/-- The L1 data cache holds a block once, and never one that the L2 cache holds (R227). -/
structure ExclusiveCaches (c : Caches) : Prop where
  once : c.l1d.Pairwise (fun a b => a.block ≠ b.block)
  disjoint : ∀ a ∈ c.l1d, ∀ b ∈ c.l2, a.block ≠ b.block
  /-- what a line keeps of the memory below it is no longer than the line -/
  below : ∀ a ∈ c.l1d ++ c.l2, a.below.length ≤ 64

end Machine

end Sys2Proof
end

