-- ==== Sys2Proof/Certificates/Slice0/Obligations.lean ====
section
/-! DEFINITION. The statements for the provers. -/

open Sys2Proof Sys2Proof.Machine

/-! Encoding -/

/-- 30_encoding.md: the decoder reads every well-formed instruction, with every operand at every
value, from the word the encoder writes. -/
def Obligations.EveryWellFormedInstructionDecodes : Prop :=
  ∀ i : Instr, i.wellFormed = true → decodeWord (encode i) = .ok i

/-- 30_encoding.md: a word that decodes is the encoding of its instruction; no bit of it is
dropped. -/
def Obligations.EveryDecodedWordEncodesBack : Prop :=
  ∀ (w : Ins) (i : Instr), decodeWord w = .ok i → i.wellFormed = true ∧ encode i = w

/-- Words that the rules of 40, 41 and 42 write out in their examples. -/
def Obligations.WrittenWordsDecode : Prop :=
  decodeWord 0xD503207F = .ok .wfi ∧ decodeWord 0xD503221F = .ok .esb ∧
  decodeWord 0xD5033FDF = .ok (.isb 15) ∧ decodeWord 0xD5033F5F = .ok (.clrex 15) ∧
  decodeWord 0xD50EF000 = .ok (.ramindex 0) ∧ decodeWord 0xD5087E43 = .ok (.dcCisw 3) ∧
  decodeWord 0xD50B7423 = .ok (.dcZva 3) ∧ decodeWord 0x97FFFFFF = .ok (.bl 0x3FFFFFF) ∧
  decodeWord 0xD73F08A6 = .ok (.blraa 5 6) ∧ decodeWord 0xD65F03C0 = .ok (.ret 30) ∧
  decodeWord 0xC87F0820 = .ok (.ldxpX 0 2 1) ∧ decodeWord 0xC8220C20 = .ok (.stxpX 2 0 3 1) ∧
  decodeWord 0x88A07C22 = .ok (.casW 0 2 1) ∧ decodeWord 0x48207C82 = .ok (.caspX 0 2 4) ∧
  decodeWord 0x78607022 = .ok (.lduminlh 0 2 1) ∧ decodeWord 0xB820003F = .ok (.staddW 0 1) ∧
  decodeWord 0xB8208022 = .ok (.swpW 0 2 1) ∧ decodeWord 0xF9802020 = .ok (.prfmImm 0 1 8)

/-! Steps -/

/-- When the fetch gives a word that decodes, and no check stops it before execution, the step is
the instruction's execution, in the state after the fetch. The fetch has changed no register; before
it the counters have come further, which is what `tick` does to the system registers. -/
def Obligations.StepRunsDecodedInstruction : Prop :=
  ∀ (s s1 : State) (m : Mapped) (w : Ins) (i : Instr), RunsNext s →
    s.tick.fetch = .word s1 m w → s1.preExecute m w = none → decodeWord w = .ok i →
    step s = exec i s1.stepConsumed ∧ s1.x = s.x ∧ s1.sp = s.sp ∧ s1.pc = s.pc ∧
      s1.pstate = s.pstate ∧ s1.sys = s.tick.sys ∧ s1.vec = s.vec ∧ s1.monitor = s.monitor

/-- A fetch that translates, is permitted and meets no error, with no older word to be seen, gives
the four bytes at its address, the first the least significant (30_encoding.md); one from a device
is refused (20_memory.md section 4). -/
def Obligations.FetchReadsInstructionBytes : Prop :=
  ∀ (s s1 : State) (m : Mapped), s.pc.toNat % 4 = 0 → s.translate s.pc .fetch = .ok s1 m →
    s1.permissionFault m .fetch = none →
    (s1.fetchesDevice m = true → s.fetch = .stop (.refused .executableDevice)) ∧
    (s1.fetchesDevice m = false → s1.aliasRefused m = false → s1.busError m 4 = false →
    (∀ w ∈ s1.cache.old, w.key ≠ mappedKey m) →
    s1.cache.dirtyBelow (blockOf (mappedKey m)) = none →
    ∃ s2, s.fetch = .word s2 m
        (Memory.read s1.mem (mappedKey m + 3) ++ Memory.read s1.mem (mappedKey m + 2) ++
          Memory.read s1.mem (mappedKey m + 1) ++ Memory.read s1.mem (mappedKey m)) ∧
      s2.mem = s1.mem ∧ s2.x = s.x ∧ s2.pc = s.pc ∧ s2.pstate = s.pstate ∧ s2.sys = s.sys)

/-- A pending asynchronous exception that no mask stops is taken before the next instruction: IRQ,
FIQ, SError, and the virtual ones, which go to EL1. PSTATE and `pc` are saved; an interrupt writes
no syndrome, an SError the one it came with, a virtual one that of VSESR_EL2, with HCR_EL2.VSE
cleared. With the GIC CPU interface disabled the pins signal; else an interrupt of the interface is
signalled as IRQ or as FIQ by its group (60_exceptions.md sections 2, 3 and 5; that an SError which
an entry has synchronised is taken at once is log entry 21, the syndrome and the clearing of a
virtual one log entry 50, the places of the control bits log entry 12, the interface log entry 24,
that the counters come further first log entry 26). -/
def Obligations.PendingAsyncExceptionIsTaken : Prop :=
  ∀ s : State, s.inbox = [] → s.power = .on → s.throttle.dispatchBlock = false →
    s.dbg.halted = false → s.dbg.request = false → s.tick.bigEndian = false →
    s.tick.resetRequested = false → s.asleep = false →
    (s.gicDisabled = true → s.tick.isPending .irq = s.irq.irq ∧
      s.tick.isPending .fiq = s.irq.fiq) ∧
    (∀ g, s.gicDisabled = false → s.gic.pending = [g] → s.tick.sufficient g = true →
      s.tick.isPending .fiq = s.tick.asFiq g.group ∧
      s.tick.isPending .irq = !s.tick.asFiq g.group) ∧
    (∀ (k : AsyncKind) (el : EL), s.tick.isPending k = true → s.tick.takeable k = true →
      (∀ j, s.tick.isPending j = true → j = k) → (k = .serror → s.irq.due = true) →
      el = s.tick.asyncTarget k →
      ∃ t, step s = .next t ∧
        t.pc = s.tick.vectorAddress el (match k with
          | .irq | .virq => .irq
          | .fiq | .vfiq => .fiq
          | .serror | .vserror => .serror) ∧
        t.get (elrOf el) = s.pc ∧ t.get (spsrOf el) = packPState s.pstate ∧
        t.pstate = s.tick.handlerPState el ∧ t.x = s.x ∧ t.sp = s.sp ∧ t.mem = s.mem ∧
        (k = .virq ∨ k = .vfiq ∨ k = .vserror → el = 1) ∧
        (k ≠ .serror → k ≠ .vserror → t.get (esrOf el) = s.get (esrOf el)) ∧
        (∀ iss, k = .serror → s.tick.irq.serror = some iss → t.irq.serror = none ∧
          t.get (esrOf el) = 0xBE002000 ||| iss.setWidth 64) ∧
        (k = .vserror → bit (t.get .hcr_el2) 8 = false ∧
          t.get (esrOf el) = 0xBE000000 ||| (s.tick.ctl .vsesr_el2 &&& 0x1FFFFFF)))

/-- A pending physical interrupt, whatever the masks are, and a debug halt request wake the core
from WFI, and execution goes on after the WFI; after a WFI under CORE_PWRDN_EN nothing wakes the
core, a halt request neither (40_system_hint_barrier.md section 1). -/
def Obligations.WfiWakesUnlessPowerdown : Prop :=
  ∀ s : State, s.inbox = [] → s.power = .on ∨ s.power = .fullRetention →
    s.throttle.dispatchBlock = false → s.dbg.halted = false →
    s.tick.bigEndian = false → s.tick.resetRequested = false →
    s.sleep.lowPower = .wfi →
    (s.sleep.wakeMasked = false →
      s.tick.physIrq = true ∨ s.tick.physFiq = true ∨ s.tick.irq.serror.isSome = true ∨
        (s.dbg.request = true ∧ s.haltingAllowed = true) → s.hasNext →
      ∃ t, step s = .next t ∧ t.sleep.lowPower = .running ∧ t.power = .on ∧ t.pc = s.pc + 4 ∧
        KeepsRegs s.tick t [] 0 ∧ t.mem = s.mem ∧ t.irq = s.tick.irq ∧ t.dbg = s.dbg) ∧
    (s.sleep.wakeMasked = true →
      ∃ t, step s = .next t ∧ t.sleep = s.sleep ∧ t.pc = s.pc ∧
        KeepsRegs s.tick t [] s.pstate.btype ∧ t.mem = s.mem ∧ t.irq = s.tick.irq ∧
        t.dbg = s.dbg)

/-- R587: while the dispatch-block pin is asserted the core takes no instruction step; interrupts
stay pending; snoops are still served. -/
def Obligations.DispatchBlockHoldsCore : Prop :=
  ∀ s : State, s.throttle.dispatchBlock = true → s.power = .on →
    (s.inbox = [] → step s = .next s.tick ∧ s.tick.pc = s.pc ∧ s.tick.x = s.x ∧
      s.tick.mem = s.mem ∧ s.tick.gic = s.gic ∧ s.tick.irq.irq = s.irq.irq ∧
      s.tick.irq.fiq = s.irq.fiq ∧ s.tick.irq.virq = s.irq.virq ∧ s.tick.irq.vfiq = s.irq.vfiq ∧
      (s.irq.serror.isSome = true → s.tick.irq.serror = s.irq.serror)) ∧
    (∀ b inv rest, s.inbox = .snoop b inv :: rest →
      ∃ t, step s = .next t ∧ t.pc = s.pc ∧ t.x = s.x ∧ t.irq = s.tick.irq ∧ t.gic = s.gic ∧
        t.mem = s.mem ∧ t.throttle.dispatchBlock = true ∧
        (inv = true → holdsBlock t.cache.l1d b = false ∧ holdsBlock t.cache.l2 b = false))

/-! Hints, barriers, system instructions -/

/-- WFE with the event register set clears it and completes; else it sleeps, unless it is trapped
(40_system_hint_barrier.md section 1). -/
def Obligations.WfeClearsEventOrSleeps : Prop :=
  ∀ s : State,
    (s.eventReg = true → s.hasNext → ∃ t, exec .wfe s = .next t ∧ t.eventReg = false ∧
      t.pc = s.pc + 4 ∧ t.sleep = s.sleep ∧ KeepsRegs s t [] 0 ∧ t.mem = s.mem ∧
      t.monitor = s.monitor) ∧
    (s.eventReg = false → s.sleepTrap true = none → ∃ t, exec .wfe s = .next t ∧
      t.sleep.lowPower = .wfe ∧ t.sleep.wakeMasked = false ∧ t.eventReg = false ∧ t.pc = s.pc ∧
      KeepsRegs s t [] s.pstate.btype ∧ t.mem = s.mem ∧ t.monitor = s.monitor)

/-- WFI, with no Warm reset requested: it completes at once with a wake-up event pending, else it
sleeps; under CORE_PWRDN_EN it sleeps with every wake-up event masked. With a Warm reset requested
through RMR_EL3 it starts that reset (40_system_hint_barrier.md section 1, 70_reset_and_hazards.md
section 1). -/
def Obligations.WfiCompletesOrSleeps : Prop :=
  ∀ s : State,
    (bit (s.ctl .rmr_el3) 1 = true → ∃ t, exec .wfi s = .next t ∧ t.power = .warmReset ∧
      t.pc = s.pc ∧ KeepsRegs s t [] s.pstate.btype ∧ t.mem = s.mem) ∧
    (bit (s.ctl .rmr_el3) 1 = false → s.powerdownEnabled = false → s.wfiWakes = true →
      s.hasNext → ∃ t, exec .wfi s = .next t ∧ t.pc = s.pc + 4 ∧ t.sleep = s.sleep ∧
      KeepsRegs s t [] 0 ∧ t.mem = s.mem ∧ t.monitor = s.monitor) ∧
    (bit (s.ctl .rmr_el3) 1 = false → s.powerdownEnabled = true ∨ s.wfiWakes = false →
      s.sleepTrap false = none → ∃ t, exec .wfi s = .next t ∧ t.sleep.lowPower = .wfi ∧
      t.sleep.wakeMasked = s.powerdownEnabled ∧ t.pc = s.pc ∧
      KeepsRegs s t [] s.pstate.btype ∧ t.mem = s.mem ∧ t.monitor = s.monitor)

/-- A WFI or WFE that would sleep is trapped: to EL3 by SCR_EL3, else to EL2 by HCR_EL2, else from
EL0 by SCTLR_ELx; the core does not sleep and the event register stays (60_exceptions.md section 1;
the places of the controls are log entry 12). That the SCTLR of EL0 is SCTLR_EL2 under E2H and TGE,
where the rule names SCTLR_EL1 alone, is the model's choice, PRESUMED, log entry 37. -/
def Obligations.TrappedSleepInstruction : Prop :=
  ∀ (s : State) (wfe : Bool) (i : Instr), i = (if wfe then .wfe else .wfi) →
    (wfe = true → s.eventReg = false) →
    (wfe = false → bit (s.ctl .rmr_el3) 1 = false ∧ (s.powerdownEnabled = true ∨
      s.wfiWakes = false)) →
    ∀ el : EL,
      (s.el < 3 ∧ bit s.scr (if wfe then 13 else 12) = true ∧ el = 3) ∨
      (s.el < 2 ∧ bit s.scr (if wfe then 13 else 12) = false ∧ s.el2Enabled = true ∧
        bit s.hcr (if wfe then 14 else 13) = true ∧ el = 2) ∨
      (s.el = 0 ∧ bit s.scr (if wfe then 13 else 12) = false ∧
        (s.el2Enabled = false ∨ bit s.hcr (if wfe then 14 else 13) = false) ∧
        bit s.sctlr (if wfe then 18 else 16) = false ∧ el = s.syncTarget) →
      ∃ t, exec i s = .next t ∧ TookSync s t el (if wfe then 0x7E00001 else 0x7E00000) ∧
        t.sleep.lowPower = .running ∧ t.eventReg = s.eventReg

/-- ESB takes a pending SError that is not masked, defers a masked one into DISR_EL1, and changes
nothing with none pending (40_system_hint_barrier.md section 3). -/
def Obligations.EsbTakesOrDefersSError : Prop :=
  ∀ s : State,
    (s.irq.serror = none → s.isPending .vserror = false → s.hasNext →
      ∃ t, exec .esb s = .next t ∧ t.pc = s.pc + 4 ∧ KeepsRegs s t [] 0 ∧ t.mem = s.mem ∧
        t.irq = s.irq ∧ t.monitor = s.monitor) ∧
    (∀ iss, s.irq.serror = some iss → s.takeable .serror = false →
      s.isPending .vserror = false → s.hasNext →
      ∃ t, exec .esb s = .next t ∧ t.pc = s.pc + 4 ∧
        t.get .disr_el1 = 0x80000000 ||| iss.setWidth 64 ||| (if s.irq.due then 0x2000 else 0) ∧
        (∀ q, q ≠ .disr_el1 → t.get q = s.get q) ∧
        t.irq = { s.irq with serror := none, due := false } ∧
        t.x = s.x ∧ t.sp = s.sp ∧ t.vec = s.vec ∧ t.mem = s.mem) ∧
    (∀ iss, s.irq.serror = some iss → s.takeable .serror = true →
      ∃ t, exec .esb s = .next t ∧ t.irq = { s.irq with serror := none, due := false } ∧
        t.pc = s.vectorAddress (s.asyncTarget .serror) .serror ∧
        t.get (esrOf (s.asyncTarget .serror)) =
          0xBE000000 ||| iss.setWidth 64 ||| (if s.irq.due then 0x2000 else 0) ∧
        (t.get (elrOf (s.asyncTarget .serror)) = s.pc ∨
          t.get (elrOf (s.asyncTarget .serror)) = s.pc + 4) ∧
        t.get (spsrOf (s.asyncTarget .serror)) = packPState s.pstate ∧
        t.pstate = s.handlerPState (s.asyncTarget .serror) ∧ t.x = s.x ∧ t.mem = s.mem)

/-- CLREX, at any CRm, opens the monitor and advances; it makes no memory access and changes no
register (42_exclusive_atomic_cache.md section 1; the spec gives the transition as general
knowledge). -/
def Obligations.ClrexOpensMonitor : Prop :=
  ∀ (crm : BitVec 4) (s : State),
    decodeWord (0xD503305F ||| (crm.setWidth 32 <<< 8)) = .ok (.clrex crm) ∧
    (s.hasNext → ∃ t, exec (.clrex crm) s = .next t ∧ t.monitor = .opened ∧ t.pc = s.pc + 4 ∧
      KeepsRegs s t [] 0 ∧ t.mem = s.mem ∧ t.events = s.events)

/-- ISB, the same at any CRm: every register written before is in effect after it
(40_system_hint_barrier.md section 2). -/
def Obligations.IsbSynchronisesContext : Prop :=
  ∀ (crm : BitVec 4) (s : State), (∀ crm', exec (.isb crm') s = exec (.isb crm) s) ∧
    (s.hasNext → ∃ t, exec (.isb crm) s = .next t ∧ (∀ r, t.ctl r = s.get r) ∧
      t.pc = s.pc + 4 ∧ KeepsRegs s t [] 0 ∧ t.mem = s.mem ∧ t.monitor = s.monitor)

/-- A write of a translation control register may be seen by later instructions or not until an
ISB; after it, it is (70_reset_and_hazards.md section 4). That the register holds the whole written
value, reserved bits too, is the model's choice, log entry 44. -/
def Obligations.RegisterWriteSeenAfterIsb : Prop :=
  ∀ (s : State) (r : SysReg) (e : SysEnc) (rt : Reg),
    r ∈ [SysReg.ttbr0_el1, .ttbr1_el1, .tcr_el1, .ttbr0_el2, .ttbr1_el2, .tcr_el2, .ttbr0_el3,
      .tcr_el3, .vttbr_el2, .vtcr_el2, .sctlr_el1, .sctlr_el2, .sctlr_el3] →
    s.cfg.regAt e = some r → s.sysGate r e rt false = none → s.olds r = [] → s.hasNext →
    ∃ t, exec (.msr e rt) s = .next t ∧ t.get r = s.xr rt ∧
      (t.ctl r = s.xr rt ∨ t.ctl r = s.get r) ∧
      ∀ crm u, exec (.isb crm) t = .next u → u.ctl r = s.xr rt

/-- RAMINDEX completes at EL3 in every state: it loads the twelve data registers, changes no other
system register, no cache and no TLB, and advances (40_system_hint_barrier.md section 4; the values
are log entry 32). Below EL3 it is UNDEFINED: `RegisterBelowItsLevelUndefined`. -/
def Obligations.RamindexCompletesAtEl3 : Prop :=
  ∀ (s : State) (rt : Reg), s.el = 3 → s.hasNext →
    ∃ t, exec (.ramindex rt) s = .next t ∧
      (∀ p ∈ ramDataRegs, t.get p.1 = Config.ramRead (s.xr rt) s.draws p.2) ∧
      (∀ q, q.info.group ≠ .ramData → t.get q = s.get q) ∧
      t.ram = ⟨s.xr rt, s.draws, true, false⟩ ∧ t.pc = s.pc + 4 ∧
      t.pstate = { s.pstate with btype := 0 } ∧ t.x = s.x ∧ t.sp = s.sp ∧ t.vec = s.vec ∧
      t.mem = s.mem ∧ t.cache = s.cache ∧ t.tlb = s.tlb ∧ t.monitor = s.monitor

/-- DC ZVA sets the aligned 64-byte block to zero and changes no other byte, of any memory type: it
raises no Alignment fault (20_memory.md section 8; log entry 64). Below EL2 it is trapped to EL2 by
HCR_EL2.TDZ, else from EL0 by the DZE bit of SCTLR (42_exclusive_atomic_cache.md section 6; the
places of the controls are log entry 12). -/
def Obligations.DcZvaZeroesBlock : Prop :=
  ∀ (s : State) (rt : Reg),
    (s.el < 2 → s.el2Enabled = true → bit s.hcr 28 = true → ∃ t, exec (.dcZva rt) s = .next t ∧
      TookSync s t 2 (0x6212DC08 + (rt.setWidth 64 <<< 5))) ∧
    (s.el = 0 → s.el2Enabled = false ∨ bit s.hcr 28 = false → bit s.sctlr 14 = false →
      ∃ t, exec (.dcZva rt) s = .next t ∧
        TookSync s t s.syncTarget (0x6212DC08 + (rt.setWidth 64 <<< 5))) ∧
    (∀ s1 m, (s.el < 2 → s.el2Enabled = false ∨ bit s.hcr 28 = false) →
      (s.el = 0 → bit s.sctlr 14 = true) → s.bigEndian = false →
      s.translate (s.xr rt) .write = .ok s1 m → s1.permissionFault m .write = none →
      Unhindered s1 (zvaReq (s.xr rt)) (blockStart m) → s.hasNext → Memory.wf s.mem →
      ∃ t, exec (.dcZva rt) s = .next t ∧ t.pc = s.pc + 4 ∧
        (t.monitor = s.monitor ∨ t.monitor = .opened) ∧
        (s.onUtilityBus (blockStart m) = false →
          (∀ i < 64, Memory.read t.mem (mappedKey m / 64 * 64 + i) = 0) ∧
          KeepsMemOutside s1 t (mappedKey m / 64 * 64) 64 ∧ KeepsRegs s t [] 0) ∧
        (s.onUtilityBus (blockStart m) = true → KeepsRegsOnBus s t [] 0 ∧ t.mem = s1.mem))

/-- DC CISW cleans and invalidates the line at its place, and memory stays what coherent observers
see; a place that does not exist is refused; at EL0 it is UNDEFINED; at EL1 it is trapped to EL2 by
HCR_EL2.TSW (42_exclusive_atomic_cache.md section 6; the place of the control is log entry 12). -/
def Obligations.DcCiswCleansPlace : Prop :=
  ∀ (s : State) (rt : Reg),
    (s.el = 0 → ∃ t, exec (.dcCisw rt) s = .next t ∧ TookSync s t s.syncTarget 0x2000000) ∧
    (s.el = 1 → s.el2Enabled = true → bit s.hcr 22 = true →
      ∃ t, exec (.dcCisw rt) s = .next t ∧ TookSync s t 2 (0x62141C1C + (rt.setWidth 64 <<< 5))) ∧
    (s.el ≠ 0 → s.hcrBelow 22 = false → s.setWay (s.xr rt) = none →
      exec (.dcCisw rt) s = .refused .setWayOutOfRange) ∧
    (∀ level set way, s.el ≠ 0 → s.hcrBelow 22 = false →
      s.setWay (s.xr rt) = some (level, set, way) → s.hasNext →
      ∃ t, exec (.dcCisw rt) s = .next t ∧ t.pc = s.pc + 4 ∧ KeepsRegs s t [] 0 ∧
        t.mem = s.mem ∧ t.monitor = s.monitor ∧
        (level = 0 → ∀ e ∈ t.cache.l1d, lineAt e set way = false) ∧
        (level = 1 → ∀ e ∈ t.cache.l2, lineAt e set way = false))

/-- DC IVAC invalidates the block of its address in the caches; memory can change only inside the
block, and only where a cache held it Modified; at EL0 it is UNDEFINED; at EL1 it is trapped to EL2
by HCR_EL2.TPCP (42_exclusive_atomic_cache.md section 6; the place of the control is log entry 12).
-/
def Obligations.DcIvacInvalidatesBlock : Prop :=
  ∀ (s : State) (rt : Reg),
    (s.el = 0 → ∃ t, exec (.dcIvac rt) s = .next t ∧ TookSync s t s.syncTarget 0x2000000) ∧
    (s.el = 1 → s.el2Enabled = true → bit s.hcr 23 = true →
      ∃ t, exec (.dcIvac rt) s = .next t ∧ TookSync s t 2 (0x62121C0C + (rt.setWidth 64 <<< 5))) ∧
    (∀ s1 m, s.el ≠ 0 → s.hcrBelow 23 = false → s.bigEndian = false →
      Granted s (ivacReq (s.xr rt)) .write s1 m → Unhindered s1 (ivacReq (s.xr rt)) m →
      s.hasNext → Memory.wf s.mem → ExclusiveCaches s.cache →
      ∃ t, exec (.dcIvac rt) s = .next t ∧ t.pc = s.pc + 4 ∧ KeepsRegs s t [] 0 ∧
        t.monitor = s.monitor ∧
        holdsBlock t.cache.l1d (blockOf (mappedKey m)) = false ∧
        holdsBlock t.cache.l2 (blockOf (mappedKey m)) = false ∧
        KeepsMemOutside s1 t (mappedKey m / 64 * 64) 64 ∧
        (s1.cache.dirtyBelow (blockOf (mappedKey m)) = none → t.mem = s1.mem))

/-- A SYS word outside the four named operations is refused as the Arm ARM's, with every operand
(40_system_hint_barrier.md section 4; the refusal is of R314). -/
def Obligations.SysOutsideNamedOperations : Prop :=
  ∀ (op1 : BitVec 3) (crn crm : BitVec 4) (op2 : BitVec 3) (rt : Reg) (s : State),
    exec (.sys op1 crn crm op2 rt) s = .refused .archSys ∧
    (Instr.wellFormed (.sys op1 crn crm op2 rt) = true →
      decodeWord (encode (.sys op1 crn crm op2 rt)) = .ok (.sys op1 crn crm op2 rt))

/-! System registers -/

/-- MRS puts the value of a register that may be read into Xt and advances; the registers that store
exactly what is written give that value back. A read changes no system register and none of the GIC
CPU interface, but one of an interrupt acknowledge register, which may change those of the interface
alone; and none of the debug unit, but one of the data registers of the Debug Communications
Channel. Of a direct-access data register it is refused where no RAMINDEX write and then a context
synchronisation event stand before it (40_system_hint_barrier.md sections 4 and 5, 60_exceptions.md
sections 3 and 12; which registers hold exactly what is written is log entry 44). -/
def Obligations.MrsReadsRegister : Prop :=
  ∀ (s : State) (r : SysReg) (e : SysEnc) (rt : Reg), s.cfg.regAt e = some r →
    s.sysGate r e rt true = none →
    (r.info.group = .ramData → s.ram.synced = false →
      exec (.mrs rt e) s = .refused .ramDataUnsynced) ∧
    ((r.info.group = .ramData → s.ram.synced = true) → s.hasNext →
    ∃ t, exec (.mrs rt e) s = .next t ∧ t.pc = s.pc + 4 ∧
      t.xr rt = valueOf rt (s.advanced.readSys r) ∧
      (∀ q, q ≠ rt → t.xr q = s.xr q) ∧ t.sp = s.sp ∧
      t.pstate = { s.pstate with btype := 0 } ∧ t.vec = s.vec ∧ t.mem = s.mem ∧
      t.monitor = s.monitor ∧
      (r ∈ storedRegs ∨ r.info.group = .ramData → t.xr rt = valueOf rt (s.get r)) ∧
      (r ≠ .icc_iar0_el1 → r ≠ .icc_iar1_el1 →
        t.sys = s.sys ∧ t.unsynced = s.unsynced ∧ t.gic = s.gic) ∧
      (∀ q, q.info.group ≠ .gic → t.get q = s.get q) ∧
      (r ≠ .dbgdtrx_el0 → r ≠ .dbgdtr_el0 → t.dbg = s.dbg))

/-- MSR writes a register that may be written and advances; it changes no general register and no
memory, and, for the registers that store exactly what is written, no other system register
(40_system_hint_barrier.md section 5; that these hold the whole of Xt, reserved bits too, is log
entry 44). -/
def Obligations.MsrWritesRegister : Prop :=
  ∀ (s : State) (r : SysReg) (e : SysEnc) (rt : Reg), s.cfg.regAt e = some r →
    s.sysGate r e rt false = none → s.hasNext →
    ∃ t, exec (.msr e rt) s = .next t ∧ t.pc = s.pc + 4 ∧ t.x = s.x ∧ t.vec = s.vec ∧
      t.mem = s.mem ∧ t.monitor = s.monitor ∧
      (r.info.group ≠ .pstate → t.pstate = { s.pstate with btype := 0 }) ∧
      (r ∈ storedRegs → t.get r = s.xr rt ∧ (∀ q, q ≠ r → t.get q = s.get q) ∧ t.sp = s.sp) ∧
      (r = .vbar_el1 ∨ r = .vbar_el2 ∨ r = .vbar_el3 →
        t.get r = s.xr rt &&& ~~~0x7FF#64 ∧ ∀ q, q ≠ r → t.get q = s.get q)

/-- A write of a read-only register and a read of a write-only one are UNDEFINED, whatever the traps
are; so is an MRS or MSR of a register above the current level, but for an Activity Monitors access
that is trapped; and so is RAMINDEX below EL3, whose data registers and index stay
(40_system_hint_barrier.md sections 4 and 5, 60_exceptions.md section 1). -/
def Obligations.RegisterBelowItsLevelUndefined : Prop :=
  ∀ (s : State) (r : SysReg) (e : SysEnc) (rt : Reg),
    (s.cfg.regAt e = some r →
      r.info.readLevel = none ∨ ((r.info.group = .amu → s.amuTrap = none) ∧
        ∃ l, r.info.readLevel = some l ∧ s.el < l) →
      ∃ t, exec (.mrs rt e) s = .next t ∧ TookSync s t s.syncTarget 0x2000000) ∧
    (s.cfg.regAt e = some r →
      r.info.writeLevel = none ∨ ((r.info.group = .amu → s.amuTrap = none) ∧
        ∃ l, r.info.writeLevel = some l ∧ s.el < l) →
      ∃ t, exec (.msr e rt) s = .next t ∧ TookSync s t s.syncTarget 0x2000000) ∧
    (s.el ≠ 3 → ∃ t, exec (.ramindex rt) s = .next t ∧ TookSync s t s.syncTarget 0x2000000 ∧
      t.ram.index = s.ram.index ∧ ∀ p ∈ ramDataRegs, t.get p.1 = s.get p.1)

/-- With the GIC CPU interface disabled every access to its registers is UNDEFINED, at every level
(60_exceptions.md section 5). Which encodings that no row names are the interface's too is the
model's choice, log entry 14. -/
def Obligations.GicRegisterUndefinedWhenDisabled : Prop :=
  ∀ (s : State) (e : SysEnc) (rt : Reg), s.gicDisabled = true →
    (∃ r, s.cfg.regAt e = some r ∧ r.info.group = .gic) ∨
      (s.cfg.regAt e = none ∧ e.isGic = true) →
    (∃ t, exec (.mrs rt e) s = .next t ∧ TookSync s t s.syncTarget 0x2000000) ∧
    (∃ t, exec (.msr e rt) s = .next t ∧ TookSync s t s.syncTarget 0x2000000)

/-- An Activity Monitors access in a direction that the register has is trapped to EL2 by
CPTR_EL2.TAM, else to EL3 by CPTR_EL3.TAM, else from EL0 by AMUSERENR_EL0.EN, with the register and
the direction in the syndrome, also where the register could not be accessed at the level without
the trap (60_exceptions.md sections 1 and 11; the places of the controls are log entry 12). A write
of a read-only one is UNDEFINED before any trap: `RegisterBelowItsLevelUndefined`. -/
def Obligations.AmuAccessTrapped : Prop :=
  ∀ (s : State) (r : SysReg) (e : SysEnc) (rt : Reg) (read : Bool) (el : EL),
    s.cfg.regAt e = some r → r.info.group = .amu → (accessLevel r read).isSome = true →
    (s.el < 2 ∧ s.el2Enabled = true ∧ bit (s.ctl .cptr_el2) 30 = true ∧ el = 2) ∨
    (s.el < 3 ∧ (2 ≤ s.el ∨ s.el2Enabled = false ∨ bit (s.ctl .cptr_el2) 30 = false) ∧
      bit (s.ctl .cptr_el3) 30 = true ∧ el = 3) ∨
    (s.el = 0 ∧ (s.el2Enabled = false ∨ bit (s.ctl .cptr_el2) 30 = false) ∧
      bit (s.ctl .cptr_el3) 30 = false ∧ bit (s.ctl .amuserenr_el0) 0 = false ∧
      el = s.syncTarget) →
    ∃ t, (if read then exec (.mrs rt e) s else exec (.msr e rt) s) = .next t ∧
      TookSync s t el (BitVec.ofNat 64 (0x62000000 + (2 + e.o0.toNat) * 2 ^ 20 +
        e.op2.toNat * 2 ^ 17 + e.op1.toNat * 2 ^ 14 + e.crn.toNat * 2 ^ 10 + rt.toNat * 2 ^ 5 +
        e.crm.toNat * 2 + (if read then 1 else 0)))

/-! Control transfer -/

/-- A call puts the return address in X30, pushes it on the return stack and branches: BL to an
offset, BLR to its register, read first, BLRAAZ, BLRABZ, BLRAA and BLRAB to the authenticated
register, with modifier 0 or a register or SP (41_branch_return.md section 2). That the return stack
has no bound is the model's choice, log entry 59. -/
def Obligations.CallsLinkAndBranch : Prop :=
  ∀ (s : State) (imm26 : BitVec 26) (rn rm : Reg) (target : Word) (btype : BitVec 2) (i : Instr),
    s.hasNext →
    (i = .bl imm26 ∧ target = s.pc + (imm26 ++ 0#2).signExtend 64 ∧ btype = 0) ∨
    (i = .blr rn ∧ target = s.xr rn ∧ btype = 2) ∨
    (i = .blraaz rn ∧ s.authI false (s.xr rn) 0 = some target ∧ btype = 2) ∨
    (i = .blrabz rn ∧ s.authI true (s.xr rn) 0 = some target ∧ btype = 2) ∨
    (i = .blraa rn rm ∧ btype = 2 ∧
      s.authI false (s.xr rn) (if rm = 31 then s.spCur else s.xr rm) = some target) ∨
    (i = .blrab rn rm ∧ btype = 2 ∧
      s.authI true (s.xr rn) (if rm = 31 then s.spCur else s.xr rm) = some target) →
    ∃ t, exec i s = .next t ∧ t.pc = target ∧ t.xr 30 = s.pc + 4 ∧
      t.returnStack = ⟨s.pc + 4, .a64⟩ :: s.returnStack ∧ KeepsRegs s t [30] btype ∧ t.mem = s.mem ∧
      t.monitor = s.monitor

/-- AuthI: disabled, it returns the pointer; a pointer with the right code gives its canonical
pointer, its address bits with bit 55 copied above them; any other gives a fault where FPAC is
implemented, else a pointer with the same address bits that is not canonical, from which a fetch
takes a Translation or an Address size fault, whether tags are ignored or not, in every state whose
translation control registers are those of this one (41_branch_return.md section 5; the pointer's
layout is log entry 30, where the tag bits are is log entry 51). -/
def Obligations.AuthenticationOutcomes : Prop :=
  ∀ (s : State) (keyB : Bool) (p modifier : Word),
    (s.authEnabled keyB = false → s.authI keyB p modifier = some p) ∧
    (s.authEnabled keyB = true → s.authPasses keyB p modifier = true →
      ∃ q, s.authI keyB p modifier = some q ∧ q = canonicalPointer p ∧
        (∀ i < 48, bit q i = bit p i) ∧ ∀ i, 48 ≤ i → i < 64 → bit q i = bit p 55) ∧
    (s.authEnabled keyB = true → s.authPasses keyB p modifier = false →
      (s.cfg.fpacImplemented = true → s.authI keyB p modifier = none) ∧
      (s.cfg.fpacImplemented = false →
        ∃ q, s.authI keyB p modifier = some q ∧ nonCanonical q = true ∧
          (∀ i < 48, bit q i = bit p i) ∧
          ∀ u : State, (∀ r ∈ [SysReg.tcr_el1, .tcr_el2, .tcr_el3],
              u.get r = s.get r ∧ ∀ w ∈ u.olds r, w ∈ s.olds r) →
            nonCanonical (u.untagged q .fetch) = true ∧
            ∃ f, u.translate q .fetch = .fault u f ∧
              (f.kind = .translation ∨ f.kind = .addressSize)))

/-- Where FPAC is implemented, an instruction whose authentication fails takes a Pointer
Authentication fault and has no other effect (41_branch_return.md section 5; the syndrome is log
entry 48). -/
def Obligations.AuthenticationFaultTaken : Prop :=
  ∀ (s : State) (rn rm : Reg) (keyB : Bool) (i : Instr),
    (i = (if keyB then .blrabz rn else .blraaz rn) ∧ s.authI keyB (s.xr rn) 0 = none) ∨
    (i = (if keyB then .blrab rn rm else .blraa rn rm) ∧
      s.authI keyB (s.xr rn) (s.base rm) = none) ∨
    (i = (if keyB then .retab else .retaa) ∧ s.authI keyB (s.xr 30) s.spCur = none) ∨
    (i = (if keyB then .eretab else .eretaa) ∧ s.el ≠ 0 ∧ s.returnTrapped = false ∧
      s.authI keyB (s.get (elrOf s.el)) s.spCur = none) →
    ∃ t, exec i s = .next t ∧
      TookSync s t s.syncTarget (if keyB then 0x72000001 else 0x72000000) ∧
      t.returnStack = s.returnStack

/-- RET branches to its register, RETAA and RETAB to the authenticated X30; each pops the return
stack and writes no register (41_branch_return.md section 3). That a pop of the empty stack leaves
it empty is the model's choice, log entry 59. -/
def Obligations.ReturnsPopAndBranch : Prop :=
  ∀ (s : State) (rn : Reg) (target : Word) (i : Instr),
    (i = .ret rn ∧ target = s.xr rn) ∨
    (i = .retaa ∧ s.authI false (s.xr 30) s.spCur = some target) ∨
    (i = .retab ∧ s.authI true (s.xr 30) s.spCur = some target) →
    ∃ t, exec i s = .next t ∧ t.pc = target ∧ t.returnStack = s.returnStack.drop 1 ∧
      KeepsRegs s t [] 0 ∧ t.mem = s.mem ∧ t.monitor = s.monitor

/-- ERET, ERETAA and ERETAB above EL0: PSTATE comes from SPSR, or, for an illegal return, keeps its
level and stack pointer and sets IL; the monitor opens; every register write is in effect. At EL0
they are UNDEFINED; at EL1 under nested virtualisation they are trapped to EL2, before any
authentication (41_branch_return.md section 4, 60_exceptions.md section 2; the control and the
syndrome of the trap are log entries 12 and 48). That an illegal return keeps nRW too, where the
rule names EL and SP, is the model's choice, log entry 49. -/
def Obligations.ExceptionReturnRestoresState : Prop :=
  ∀ (s : State) (target : Word) (i : Instr),
    (s.el = 0 → i = .eret ∨ i = .eretaa ∨ i = .eretab →
      ∃ t, exec i s = .next t ∧ TookSync s t s.syncTarget 0x2000000) ∧
    (∀ iss, s.el = 1 → s.el2Enabled = true → bit s.hcr 42 = true →
      (i = .eret ∧ iss = 0) ∨ (i = .eretaa ∧ iss = 2) ∨ (i = .eretab ∧ iss = 3) →
      ∃ t, exec i s = .next t ∧ TookSync s t 2 (0x6A000000 ||| iss)) ∧
    (s.el ≠ 0 → (s.el = 1 → s.el2Enabled = true → bit s.hcr 42 = false) →
      (i = .eret ∧ target = s.get (elrOf s.el)) ∨
      (i = .eretaa ∧ s.authI false (s.get (elrOf s.el)) s.spCur = some target) ∨
      (i = .eretab ∧ s.authI true (s.get (elrOf s.el)) s.spCur = some target) →
      ∃ t, exec i s = .next t ∧ t.pc = target ∧ t.monitor = .opened ∧ t.x = s.x ∧ t.sp = s.sp ∧
        t.sys = s.sys ∧ t.vec = s.vec ∧ t.mem = s.mem ∧ t.returnStack = s.returnStack ∧
        (∀ r, t.ctl r = s.get r) ∧
        ∀ w tgt, w = s.get (spsrOf s.el) → tgt = field w 2 2 →
          if s.el.val < tgt ∨ bit w 4 = true ∨ bit w 1 = true ∨ (tgt = 0 ∧ bit w 0 = true) ∨
              (tgt = 2 ∧ s.el2Enabled = false) ∨ (tgt = 1 ∧ s.tge = true) then
            t.pstate = { unpackPState w with
              il := true, el := s.pstate.el, sp := s.pstate.sp, nRW := s.pstate.nRW }
          else t.pstate = unpackPState w)

/-! Exclusive accesses -/

/-- A Load-Exclusive of one register puts the bytes at its address in Rt, the rest 0, and tags the
block; memory stays (42_exclusive_atomic_cache.md section 2). Of memory that is not shareable, it
may be older bytes that it loads (20_memory.md section 2; log entry 61); on the utility bus it loads
what a register there reads as (10_state.md section 7; log entry 68). -/
def Obligations.LoadExclusiveReadsAndTags : Prop :=
  ∀ (sz : Size) (acq : Bool) (rt rn : Reg) (s s1 : State) (m : Mapped) (r : Req),
    r = s.baseReq rn sz.bytes true false → AddressOk s r → Granted s r .read s1 m →
    Unhindered s1 r m → s.hasMonitor m = true → s1.busError m sz.bytes = false → s.hasNext →
    ∃ t, exec (Instr.loadExclOf sz acq rt rn) s = .next t ∧
      t.xr rt = valueOf rt ((s1.loadData m sz.bytes).setWidth 64) ∧
      (m.attr.shareable = true → s.onUtilityBus m = false →
        t.xr rt = valueOf rt ((Memory.readLE s1.mem (mappedKey m) sz.bytes).setWidth 64)) ∧
      t.monitor = .exclusive (tagOf m.pa) m.ns ∧ t.pc = s.pc + 4 ∧ KeepsRegs s t [rt] 0 ∧
      t.mem = s1.mem ∧
      t.events = s.events ++ [.exclusiveRead (mappedKey m) sz.bytes acq m.attr]

/-- A Load-Exclusive pair: the register at the lower address is Rt; equal registers are refused
(42_exclusive_atomic_cache.md section 2). -/
def Obligations.LoadExclusivePairReadsAndTags : Prop :=
  ∀ (wide acq : Bool) (rt rt2 rn : Reg) (s s1 : State) (m : Mapped) (r : Req) (h : Nat),
    (rt = rt2 → exec (Instr.loadExclPairOf wide acq rt rt2 rn) s =
      .refused .constrainedUnpredictable) ∧
    (rt ≠ rt2 → h = (if wide then 8 else 4) → r = s.baseReq rn (2 * h) true false →
      AddressOk s r → Granted s r .read s1 m → Unhindered s1 r m → s.hasMonitor m = true →
      s1.busError m (2 * h) = false → s.hasNext →
      ∃ t, exec (Instr.loadExclPairOf wide acq rt rt2 rn) s = .next t ∧
        t.xr rt = valueOf rt ((lowBytes h (s1.loadData m (2 * h))).setWidth 64) ∧
        t.xr rt2 = valueOf rt2 ((lowBytes h (s1.loadData m (2 * h) >>> (8 * h))).setWidth 64) ∧
        (m.attr.shareable = true → s.onUtilityBus m = false →
          t.xr rt = valueOf rt ((Memory.readLE s1.mem (mappedKey m) h).setWidth 64) ∧
          t.xr rt2 = valueOf rt2 ((Memory.readLE s1.mem (mappedKey m + h) h).setWidth 64)) ∧
        t.monitor = .exclusive (tagOf m.pa) m.ns ∧ t.pc = s.pc + 4 ∧
        KeepsRegs s t [rt, rt2] 0 ∧ t.mem = s1.mem ∧
        t.events = s.events ++ [.exclusiveRead (mappedKey m) (2 * h) acq m.attr])

/-- A Store-Exclusive of one register stores and writes status 0 where the monitor check passes, and
it never passes with the monitor open; else it stores nothing and writes 1. The monitor is open
after it. Of a pair that obeys the rules for a loop only finitely many may fail in a row: each
failure takes one from a budget, and with none left the store passes (log entry 33). Overlapping
registers are refused (42_exclusive_atomic_cache.md sections 1 and 3). A store to the utility bus
changes no memory, and of the registers the two of MPMM at most (10_state.md section 7; log entry
68). -/
def Obligations.StoreExclusiveStoresOrFails : Prop :=
  ∀ (sz : Size) (rel : Bool) (rs rt rn : Reg) (s s1 : State) (m : Mapped) (r : Req),
    (rs = rt ∨ (rs = rn ∧ rn ≠ 31) → exec (Instr.storeExclOf sz rel rs rt rn) s =
      .refused .constrainedUnpredictable) ∧
    (rs ≠ rt → (rs = rn → rn = 31) → r = s.baseReq rn sz.bytes false true → AddressOk s r →
      Granted s r .write s1 m → Unhindered s1 r m → s.hasMonitor m = true → s.hasNext →
      Memory.wf s.mem →
      ∃ t, exec (Instr.storeExclOf sz rel rs rt rn) s = .next t ∧ t.monitor = .opened ∧
        t.pc = s.pc + 4 ∧
        (s.monitor = .opened → s.storePasses m sz.bytes = false) ∧
        (s.monitorHolds m.pa m.ns = true → s.cleanPair m sz.bytes = true → s.exclBudget = 0 →
          s.storePasses m sz.bytes = true) ∧
        (s.storePasses m sz.bytes = false → s.cleanPair m sz.bytes = true →
          t.exclBudget = s.exclBudget - 1) ∧
        (s.storePasses m sz.bytes = true → t.xr rs = 0 ∧
          (s.onUtilityBus m = false → KeepsRegs s t [rs] 0 ∧
            HoldsBytes t (mappedKey m) sz.bytes (s.xr rt) ∧
            KeepsMemOutside s1 t (mappedKey m) sz.bytes) ∧
          (s.onUtilityBus m = true → KeepsRegsOnBus s t [rs] 0 ∧ t.mem = s1.mem)) ∧
        (s.storePasses m sz.bytes = false → t.xr rs = valueOf rs 1 ∧ KeepsRegs s t [rs] 0 ∧
          t.mem = s1.mem))

/-- A Store-Exclusive pair, as the single form: Rt at the lower address
(42_exclusive_atomic_cache.md sections 1 and 3; the utility bus as there). -/
def Obligations.StoreExclusivePairStoresOrFails : Prop :=
  ∀ (wide rel : Bool) (rs rt rt2 rn : Reg) (s s1 : State) (m : Mapped) (r : Req) (h : Nat),
    (rs = rt ∨ rs = rt2 ∨ (rs = rn ∧ rn ≠ 31) →
      exec (Instr.storeExclPairOf wide rel rs rt rt2 rn) s =
        .refused .constrainedUnpredictable) ∧
    (rs ≠ rt → rs ≠ rt2 → (rs = rn → rn = 31) → h = (if wide then 8 else 4) →
      r = s.baseReq rn (2 * h) false true → AddressOk s r → Granted s r .write s1 m →
      Unhindered s1 r m → s.hasMonitor m = true → s.hasNext → Memory.wf s.mem →
      ∃ t, exec (Instr.storeExclPairOf wide rel rs rt rt2 rn) s = .next t ∧
        t.monitor = .opened ∧ t.pc = s.pc + 4 ∧
        (s.monitor = .opened → s.storePasses m (2 * h) = false) ∧
        (s.storePasses m (2 * h) = true → t.xr rs = 0 ∧
          (s.onUtilityBus m = false → KeepsRegs s t [rs] 0 ∧
            HoldsBytes t (mappedKey m) h (s.xr rt) ∧ HoldsBytes t (mappedKey m + h) h (s.xr rt2) ∧
            KeepsMemOutside s1 t (mappedKey m) (2 * h)) ∧
          (s.onUtilityBus m = true → KeepsRegsOnBus s t [rs] 0 ∧ t.mem = s1.mem)) ∧
        (s.storePasses m (2 * h) = false → t.xr rs = valueOf rs 1 ∧ KeepsRegs s t [rs] 0 ∧
          t.mem = s1.mem))

/-! Atomic accesses -/

/-- CAS returns the old value in Rs, and stores Rt where the old value is the compare value
(42_exclusive_atomic_cache.md section 4). The old value is memory's, or, of memory that is not
shareable, maybe an older one (log entry 61). A store to the utility bus changes no memory, and of
the registers the two of MPMM at most (10_state.md section 7; log entry 68). -/
def Obligations.CompareAndSwapUpdates : Prop :=
  ∀ (sz : Size) (acq rel : Bool) (rs rt rn : Reg) (s s1 s2 u : State) (m1 m : Mapped) (r : Req)
    (old : Data),
    r = s.baseReq rn sz.bytes true true → AddressOk s r → Granted s r .read s1 m1 →
    Granted s1 r .write s2 m → old = u.loadData m sz.bytes →
    u = s1.settled s2 (s1.casWrites m1 sz.bytes (s.xData rs sz.bytes)) → Unhindered u r m →
    s.isCached m = true ∨ s.cfg.interconnectAtomics = true → s.hasNext → Memory.wf s.mem →
    ∃ t, exec (Instr.casOf sz acq rel rs rt rn) s = .next t ∧
      t.xr rs = valueOf rs (old.setWidth 64) ∧ t.pc = s.pc + 4 ∧
      (m.attr.shareable = true → s.onUtilityBus m = false →
        old = Memory.readLE u.mem (mappedKey m) sz.bytes) ∧
      (old = lowBytes sz.bytes ((s.xr rs).setWidth 128) → s.onUtilityBus m = false →
        KeepsRegs s t [rs] 0 ∧ HoldsBytes t (mappedKey m) sz.bytes (s.xr rt) ∧
        KeepsMemOutside u t (mappedKey m) sz.bytes) ∧
      (old = lowBytes sz.bytes ((s.xr rs).setWidth 128) → s.onUtilityBus m = true →
        KeepsRegsOnBus s t [rs] 0 ∧ t.mem = u.mem) ∧
      (old ≠ lowBytes sz.bytes ((s.xr rs).setWidth 128) → KeepsRegs s t [rs] 0 ∧ t.mem = u.mem) ∧
      (t.monitor = s.monitor ∨ t.monitor = .opened)

/-- CASP: register pairs, the even register at the lower address, 30 paired with the zero register;
an odd first register is UNDEFINED (42_exclusive_atomic_cache.md section 4; the utility bus is log
entry 68). -/
def Obligations.CompareAndSwapPairUpdates : Prop :=
  ∀ (wide acq rel : Bool) (rs rt rn : Reg) (s s1 s2 u : State) (m1 m : Mapped) (r : Req) (h : Nat)
    (old : Data),
    (rs.toNat % 2 = 1 ∨ rt.toNat % 2 = 1 →
      ∃ t, exec (Instr.caspOf wide acq rel rs rt rn) s = .next t ∧
        TookSync s t s.syncTarget 0x2000000) ∧
    (rs.toNat % 2 = 0 → rt.toNat % 2 = 0 → h = (if wide then 8 else 4) →
      r = s.baseReq rn (2 * h) true true → AddressOk s r → Granted s r .read s1 m1 →
      Granted s1 r .write s2 m →
      u = s1.settled s2 (s1.casWrites m1 (2 * h) (s.pairData rs (rs + 1) h)) →
      old = u.loadData m (2 * h) →
      Unhindered u r m → s.isCached m = true ∨ s.cfg.interconnectAtomics = true → s.hasNext →
      Memory.wf s.mem →
      ∃ t, exec (Instr.caspOf wide acq rel rs rt rn) s = .next t ∧
        t.xr rs = (lowBytes h old).setWidth 64 ∧
        t.xr (rs + 1) = valueOf (rs + 1) ((lowBytes h (old >>> (8 * h))).setWidth 64) ∧
        t.pc = s.pc + 4 ∧
        (m.attr.shareable = true → s.onUtilityBus m = false →
          old = Memory.readLE u.mem (mappedKey m) (2 * h)) ∧
        (old = s.pairData rs (rs + 1) h → s.onUtilityBus m = false →
          KeepsRegs s t [rs, rs + 1] 0 ∧ HoldsBytes t (mappedKey m) h (s.xr rt) ∧
          HoldsBytes t (mappedKey m + h) h (s.xr (rt + 1)) ∧
          KeepsMemOutside u t (mappedKey m) (2 * h)) ∧
        (old = s.pairData rs (rs + 1) h → s.onUtilityBus m = true →
          KeepsRegsOnBus s t [rs, rs + 1] 0 ∧ t.mem = u.mem) ∧
        (old ≠ s.pairData rs (rs + 1) h → KeepsRegs s t [rs, rs + 1] 0 ∧ t.mem = u.mem))

/-- LD<op> and SWP return the old value in Rt and store the operation's result
(42_exclusive_atomic_cache.md section 4). The old value is memory's, or, of memory that is not
shareable, maybe an older one (log entry 61). A store to the utility bus changes no memory, and of
the registers the two of MPMM at most (10_state.md section 7; log entry 68). -/
def Obligations.AtomicLoadUpdates : Prop :=
  ∀ (op : AtomicOp) (sz : Size) (acq rel : Bool) (rs rt rn : Reg) (s s1 s2 : State)
    (m1 m : Mapped) (r : Req) (old : Data),
    r = s.baseReq rn sz.bytes true true → AddressOk s r → Granted s r .read s1 m1 →
    Granted s1 r .write s2 m → Unhindered s2 r m →
    s.isCached m = true ∨ s.cfg.interconnectAtomics = true → s.hasNext → Memory.wf s.mem →
    old = s2.loadData m sz.bytes →
    (m.attr.shareable = true → s.onUtilityBus m = false →
      old = Memory.readLE s2.mem (mappedKey m) sz.bytes) ∧
    ∃ t, exec (Instr.atomicOf op sz acq rel rs rt rn) s = .next t ∧
      t.xr rt = valueOf rt (old.setWidth 64) ∧ t.pc = s.pc + 4 ∧
      (s.onUtilityBus m = false → KeepsRegs s t [rt] 0 ∧
        HoldsBytes t (mappedKey m) sz.bytes ((op.result (old.setWidth (8 * sz.bytes))
          ((s.xr rs).setWidth (8 * sz.bytes))).setWidth 64) ∧
        KeepsMemOutside s2 t (mappedKey m) sz.bytes) ∧
      (s.onUtilityBus m = true → KeepsRegsOnBus s t [rt] 0 ∧ t.mem = s2.mem) ∧
      t.events = s.events ++ [.update (mappedKey m) sz.bytes (acq && rt != 31) rel] ∧
      (t.monitor = s.monitor ∨ t.monitor = .opened)

/-- ST<op> stores the operation's result and writes no register (42_exclusive_atomic_cache.md
section 4; the utility bus is log entry 68). -/
def Obligations.AtomicStoreUpdates : Prop :=
  ∀ (op : AtomicOp) (sz : Size) (rel : Bool) (rs rn : Reg) (s s1 s2 : State)
    (m1 m : Mapped) (r : Req) (old : Data),
    r = s.baseReq rn sz.bytes true true → AddressOk s r → Granted s r .read s1 m1 →
    Granted s1 r .write s2 m → Unhindered s2 r m →
    s.isCached m = true ∨ s.cfg.interconnectAtomics = true → s.hasNext → Memory.wf s.mem →
    old = s2.loadData m sz.bytes →
    (m.attr.shareable = true → s.onUtilityBus m = false →
      old = Memory.readLE s2.mem (mappedKey m) sz.bytes) ∧
    ∃ t, exec (Instr.storeAtomicOf op sz rel rs rn) s = .next t ∧ t.pc = s.pc + 4 ∧
      (s.onUtilityBus m = false → KeepsRegs s t [] 0 ∧
        HoldsBytes t (mappedKey m) sz.bytes ((op.result (old.setWidth (8 * sz.bytes))
          ((s.xr rs).setWidth (8 * sz.bytes))).setWidth 64) ∧
        KeepsMemOutside s2 t (mappedKey m) sz.bytes) ∧
      (s.onUtilityBus m = true → KeepsRegsOnBus s t [] 0 ∧ t.mem = s2.mem) ∧
      t.events = s.events ++ [.update (mappedKey m) sz.bytes false rel]

/-- The nine operations as arithmetic on `w`-bit values (42_exclusive_atomic_cache.md section 4). -/
def Obligations.AtomicOperationValues : Prop :=
  ∀ (w : Nat) (m v : BitVec w),
    (AtomicOp.add.result m v).toNat = (m.toNat + v.toNat) % 2 ^ w ∧
    (∀ i, (AtomicOp.clr.result m v).getLsbD i = (m.getLsbD i && !v.getLsbD i)) ∧
    (∀ i, (AtomicOp.eor.result m v).getLsbD i = (m.getLsbD i != v.getLsbD i)) ∧
    (∀ i, (AtomicOp.set.result m v).getLsbD i = (m.getLsbD i || v.getLsbD i)) ∧
    (AtomicOp.smax.result m v).toInt = max m.toInt v.toInt ∧
    (AtomicOp.smin.result m v).toInt = min m.toInt v.toInt ∧
    (AtomicOp.umax.result m v).toNat = max m.toNat v.toNat ∧
    (AtomicOp.umin.result m v).toNat = min m.toNat v.toNat ∧
    AtomicOp.swp.result m v = v

/-! Prefetch -/

/-- Every form of PRFM and PRFUM advances and changes no register, no memory, no TLB and not the
monitor; an unallocated extension of the register form is UNDEFINED (42_exclusive_atomic_cache.md
section 5, 30_encoding.md sections 3 and 5; that it fills no TLB is the model's choice, log entry
46). One on a misaligned SP base is in `MisalignedAccessFaults`. -/
def Obligations.PrefetchChangesNothing : Prop :=
  ∀ (s : State) (prfop : BitVec 5) (rn rm : Reg) (imm12 : BitVec 12) (imm9 : BitVec 9)
    (imm19 : BitVec 19) (option : BitVec 3) (sh : BitVec 1) (i : Instr), s.hasNext →
    (i = .prfmLit prfop imm19 ∨ ((rn = 31 → s.spMisaligned = false) ∧
      (i = .prfmImm prfop rn imm12 ∨ i = .prfum prfop rn imm9 ∨
        (i = .prfmReg prfop rn rm option sh ∧ option.getLsbD 1 = true))) →
      ∃ t, exec i s = .next t ∧ t.pc = s.pc + 4 ∧ KeepsRegs s t [] 0 ∧ t.mem = s.mem ∧
        t.tlb = s.tlb ∧ t.monitor = s.monitor) ∧
    (option.getLsbD 1 = false → ∃ t, exec (.prfmReg prfop rn rm option sh) s = .next t ∧
      TookSync s t s.syncTarget 0x2000000)

/-! Aborts -/

/-- An exclusive or atomic access to an address that is not a multiple of its size, of the whole
pair for the pairs, takes an Alignment fault Data Abort with FAR the address. One whose base is a
misaligned SP, with the check on, takes an SP alignment fault before it, and so does a prefetch
(60_exceptions.md section 1, 20_memory.md section 8). That the check at EL0 is of SCTLR_EL2 under E2H
and TGE, where the rule names SCTLR_EL1 alone, is the model's choice, PRESUMED, log entry 37. -/
def Obligations.MisalignedAccessFaults : Prop :=
  ∀ (sz : Size) (op : AtomicOp) (a b wide : Bool) (rs rt rt2 rn : Reg) (s : State) (i : Instr),
    (∀ (prfop : BitVec 5) (imm12 : BitVec 12) (imm9 : BitVec 9) (option : BitVec 3)
      (sh : BitVec 1), s.spMisaligned = true → i = .prfmImm prfop 31 imm12 ∨
        i = .prfum prfop 31 imm9 ∨ (i = .prfmReg prfop 31 rs option sh ∧
          option.getLsbD 1 = true) →
      ∃ t, exec i s = .next t ∧ TookSync s t s.syncTarget 0x9A000000) ∧
    (∀ (n : Nat) (stores : Bool), s.bigEndian = false →
    (i = Instr.loadExclOf sz a rt rn ∧ n = sz.bytes ∧ stores = false) ∨
    (i = Instr.loadExclPairOf wide a rt rt2 rn ∧ rt ≠ rt2 ∧ n = (if wide then 16 else 8) ∧
      stores = false) ∨
    (i = Instr.storeExclOf sz a rs rt rn ∧ rs ≠ rt ∧ (rs = rn → rn = 31) ∧ n = sz.bytes ∧
      stores = true) ∨
    (i = Instr.storeExclPairOf wide a rs rt rt2 rn ∧ rs ≠ rt ∧ rs ≠ rt2 ∧ (rs = rn → rn = 31) ∧
      n = (if wide then 16 else 8) ∧ stores = true) ∨
    (i = Instr.casOf sz a b rs rt rn ∧ n = sz.bytes ∧ stores = true) ∨
    (i = Instr.caspOf wide a b rs rt rn ∧ rs.toNat % 2 = 0 ∧ rt.toNat % 2 = 0 ∧
      n = (if wide then 16 else 8) ∧ stores = true) ∨
    (i = Instr.atomicOf op sz a b rs rt rn ∧ n = sz.bytes ∧ stores = true) ∨
    (i = Instr.storeAtomicOf op sz b rs rn ∧ n = sz.bytes ∧ stores = true) →
    (rn = 31 → s.spMisaligned = true →
      ∃ t, exec i s = .next t ∧ TookSync s t s.syncTarget 0x9A000000) ∧
    ((rn = 31 → s.spMisaligned = false) → (s.base rn).toNat % n ≠ 0 →
      ∃ t, exec i s = .next t ∧
        TookSync s t s.syncTarget ((if s.syncTarget = s.el then 0x96000021 else 0x92000021) |||
          (if stores then 0x40 else 0)) ∧
        t.get (farOf s.syncTarget) = s.base rn))

/-- A data access whose address does not translate, or that is not permitted, takes a Data Abort:
FAR the address, the fault status, the stage and the direction in the syndrome, a stage 2 fault to
EL2 with HPFAR_EL2; no register changes. An atomic access is checked for reading, then for writing.
A Store-Exclusive may fail with status 1 instead, where its monitor check fails (60_exceptions.md
section 1, 42_exclusive_atomic_cache.md sections 3, 4 and 6). -/
def Obligations.FailedAccessDataAbort : Prop :=
  ∀ (sz : Size) (op : AtomicOp) (a b wide : Bool) (rs rt rt2 rn : Reg) (s s0 s1 : State)
    (m0 : Mapped) (i : Instr) (n : Nat) (r : Req) (k : AccessKind) (f : MmuFault) (el : EL)
    (Aborts : State → Prop),
    (s0.translate r.va k = .fault s1 f ∧ f.kind ≠ .externalOnWalk ∨
      ∃ m, s0.translate r.va k = .ok s1 m ∧ s1.permissionFault m k = some f) →
    AddressOk s r →
    el = (if f.stage2 then 2 else s.syncTarget) →
    Aborts = (fun t => TookSync s1 t el ((if el = s.el then 0x96000000 else 0x92000000) |||
        f.status.setWidth 64 ||| (if f.s1ptw then 0x80 else 0) |||
        (if r.stores = true ∧ (r.loads = true → k = .write ∨
          (f.kind ≠ .translation ∧ f.kind ≠ .permission)) then 0x40 else 0) |||
        (if r.maintenance then 0x100 else 0)) ∧
      t.get (farOf el) = r.va ∧
      (f.stage2 = true → t.get .hpfar_el2 = (f.ipa.setWidth 64 >>> 12) <<< 4)) →
    ((i = Instr.loadExclOf sz a rt rn ∧ n = sz.bytes ∨
        i = Instr.loadExclPairOf wide a rt rt2 rn ∧ rt ≠ rt2 ∧ n = (if wide then 16 else 8)) →
      r = s.baseReq rn n true false → s0 = s → k = .read → ∃ t, exec i s = .next t ∧ Aborts t) ∧
    ((i = Instr.casOf sz a b rs rt rn ∧ n = sz.bytes ∨
        i = Instr.caspOf wide a b rs rt rn ∧ rs.toNat % 2 = 0 ∧ rt.toNat % 2 = 0 ∧
          n = (if wide then 16 else 8) ∨
        i = Instr.atomicOf op sz a b rs rt rn ∧ n = sz.bytes ∨
        i = Instr.storeAtomicOf op sz b rs rn ∧ n = sz.bytes) →
      r = s.baseReq rn n true true → s0 = s → k = .read → ∃ t, exec i s = .next t ∧ Aborts t) ∧
    ((i = Instr.casOf sz a b rs rt rn ∧ n = sz.bytes ∧ s0.loadData m0 n = s.xData rs n ∨
        i = Instr.caspOf wide a b rs rt rn ∧ rs.toNat % 2 = 0 ∧ rt.toNat % 2 = 0 ∧
          n = (if wide then 16 else 8) ∧ s0.loadData m0 n = s.pairData rs (rs + 1) (n / 2) ∨
        i = Instr.atomicOf op sz a b rs rt rn ∧ n = sz.bytes ∨
        i = Instr.storeAtomicOf op sz b rs rn ∧ n = sz.bytes) →
      r = s.baseReq rn n true true → Granted s r .read s0 m0 → k = .write →
      ∃ t, exec i s = .next t ∧ Aborts t) ∧
    (i = .dcZva rt → s.zvaTrap rt = none → r = zvaReq (s.xr rt) → s0 = s → k = .write →
      ∃ t, exec i s = .next t ∧ Aborts t) ∧
    (i = .dcIvac rt → s.el ≠ 0 → s.hcrBelow 23 = false → r = ivacReq (s.xr rt) → s0 = s →
      k = .write → ∃ t, exec i s = .next t ∧ Aborts t) ∧
    ((i = Instr.storeExclOf sz a rs rt rn ∧ rs ≠ rt ∧ (rs = rn → rn = 31) ∧ n = sz.bytes ∨
        i = Instr.storeExclPairOf wide a rs rt rt2 rn ∧ rs ≠ rt ∧ rs ≠ rt2 ∧
          (rs = rn → rn = 31) ∧ n = (if wide then 16 else 8)) →
      r = s.baseReq rn n false true → s0 = s → k = .write → s.hasNext →
      s.watchpointHit r = false →
      ∃ t, exec i s = .next t ∧ (Aborts t ∨ (s.checkFails r = true ∧ t.xr rs = valueOf rs 1 ∧
        t.monitor = .opened ∧ t.pc = s.pc + 4 ∧ KeepsRegs s t [rs] 0 ∧ t.mem = s.mem)))

/-- A watchpoint on the bytes of a Store-Exclusive is taken whatever the monitor holds, and nothing
is stored; FAR is one of the bytes accessed; where halting is allowed the core halts instead. With
the OS Lock set no watchpoint and no breakpoint is hit and no software step is active
(60_exceptions.md section 12; what matches is log entry 27). -/
def Obligations.WatchpointStopsStoreExclusive : Prop :=
  ∀ (sz : Size) (rel : Bool) (rs rt rn : Reg) (s s1 : State) (m : Mapped) (r : Req),
    rs ≠ rt → (rs = rn → rn = 31) → r = s.baseReq rn sz.bytes false true → AddressOk s r →
    Granted s r .write s1 m → s.cfg.pbhaNeutral = true → s1.tagFault r m = false →
    (s.osLock = true → s1.watchpointHit r = false ∧ s.breakpointHit = false ∧
      s.stepping = false) ∧
    (s1.watchpointHit r = true → s.haltingAllowed = true →
      exec (Instr.storeExclOf sz rel rs rt rn) s = .next s1.enterDebug) ∧
    (s1.watchpointHit r = true → s.haltingAllowed = false →
      ∃ t, exec (Instr.storeExclOf sz rel rs rt rn) s = .next t ∧
      TookSync s1 t s.debugTarget (if s.debugTarget = s.el then 0xD6000062 else 0xD2000062) ∧
      ∃ k < sz.bytes, t.get (farOf s.debugTarget) = r.va + BitVec.ofNat 64 k)

/-! Exceptions -/

/-- Exception entry to EL1, EL2 or EL3: what is saved, what PSTATE becomes, where execution goes on,
what stays (60_exceptions.md section 2). -/
def Obligations.ExceptionEntry : Prop :=
  ∀ (s t : State) (e : Entry), e.target ≠ 0 → t = s.takeException e →
    t.get (spsrOf e.target) = packPState s.pstate ∧ t.get (elrOf e.target) = e.ret ∧
    (∀ w, e.esr = some w → t.get (esrOf e.target) = w) ∧
    (e.esr = none → t.get (esrOf e.target) = s.get (esrOf e.target)) ∧
    (∀ va, e.far = .write va → t.get (farOf e.target) = va) ∧
    (e.far = .keep → t.get (farOf e.target) = s.get (farOf e.target)) ∧
    (∀ w, e.hpfar = some w → t.get .hpfar_el2 = w) ∧
    t.pc = s.vectorAddress e.target e.column ∧
    (t.pstate.d = true ∧ t.pstate.a = true ∧ t.pstate.i = true ∧ t.pstate.f = true) ∧
    (t.pstate.el = e.target ∧ t.pstate.sp = true ∧ t.pstate.nRW = false ∧ t.pstate.ss = false ∧
      t.pstate.il = false ∧ t.pstate.btype = 0) ∧
    (t.pstate.uao = false ∧ t.pstate.tco = true ∧ t.pstate.dit = s.pstate.dit ∧
      t.pstate.ssbs = bit (s.ctl (sctlrOf e.target)) 44) ∧
    (t.pstate.n = s.pstate.n ∧ t.pstate.z = s.pstate.z ∧ t.pstate.c = s.pstate.c ∧
      t.pstate.v = s.pstate.v) ∧
    t.pstate.pan = (if (e.target = 1 ∨ (e.target = 2 ∧ s.e2h = true ∧ s.tge = true)) ∧
      bit (s.ctl (sctlrOf e.target)) 23 = false then true else s.pstate.pan) ∧
    (t.monitor = s.monitor ∨ t.monitor = .opened) ∧
    t.x = s.x ∧ t.sp = s.sp ∧ t.vec = s.vec ∧ t.mem = s.mem ∧ (∀ r, t.ctl r = t.get r)

/-- The vector is VBAR with its low 11 bits 0, plus the offset of the table (60_exceptions.md
section 2, which the spec gives as general knowledge). -/
def Obligations.VectorTable : Prop :=
  ∀ (s : State) (t : EL) (c : VectorColumn), ∃ row col : Word,
    s.vectorAddress t c = ((s.ctl (vbarOf t) >>> 11) <<< 11) + (row + col) ∧
    (t = s.el → s.pstate.sp = false → row = 0) ∧ (t = s.el → s.pstate.sp = true → row = 0x200) ∧
    (t ≠ s.el → row = 0x400) ∧
    (c = .sync → col = 0) ∧ (c = .irq → col = 0x80) ∧ (c = .fiq → col = 0x100) ∧
    (c = .serror → col = 0x180)

/-- PSTATE goes into the bits of SPSR that the table of exception entry gives, and comes back from
them (60_exceptions.md section 2). -/
def Obligations.SavedStatusRoundTrip : Prop :=
  ∀ p : PState, unpackPState (packPState p) = p ∧
    bit (packPState p) 31 = p.n ∧ bit (packPState p) 30 = p.z ∧ bit (packPState p) 29 = p.c ∧
    bit (packPState p) 28 = p.v ∧ bit (packPState p) 25 = p.tco ∧
    bit (packPState p) 24 = p.dit ∧ bit (packPState p) 23 = p.uao ∧
    bit (packPState p) 22 = p.pan ∧ bit (packPState p) 21 = p.ss ∧ bit (packPState p) 20 = p.il ∧
    bit (packPState p) 12 = p.ssbs ∧ field (packPState p) 10 2 = p.btype.toNat ∧
    bit (packPState p) 9 = p.d ∧ bit (packPState p) 8 = p.a ∧ bit (packPState p) 7 = p.i ∧
    bit (packPState p) 6 = p.f ∧ bit (packPState p) 4 = p.nRW ∧
    field (packPState p) 2 2 = p.el.val ∧ bit (packPState p) 0 = p.sp

/-- A synchronous exception from a legal mode, and the return from its handler, give back PSTATE,
the program counter and the general registers, with the monitor open (60_exceptions.md section 2).
-/
def Obligations.EntryThenReturnRestores : Prop :=
  ∀ (s t u : State) (ec : Nat) (iss : BitVec 25) (el : EL), LegalMode s → s.unsynced = [] →
    el ≠ 0 → s.el ≤ el → (s.el = 2 → s.el2Enabled = true) → (s.el = 1 → s.tge = false) →
    (el = 1 → s.el2Enabled = true → bit s.hcr 42 = false) →
    t = s.takeSync el ec iss → exec .eret t = .next u →
    u.pstate = s.pstate ∧ u.pc = s.pc ∧ u.x = s.x ∧ u.sp = s.sp ∧ u.mem = s.mem ∧
      u.monitor = .opened

/-- An instruction at an address that is not a multiple of 4 takes a PC alignment fault, before any
translation, with FAR the address; with PSTATE.IL set the next instruction takes the Illegal
Execution state exception instead of being executed, after its fetch and a breakpoint on it
(60_exceptions.md sections 1 and 2). -/
def Obligations.PcAlignmentAndIllegalState : Prop :=
  ∀ s : State, RunsNext s →
    (s.pc.toNat % 4 ≠ 0 → ∃ t, step s = .next t ∧ TookSync s.tick t s.tick.syncTarget 0x8A000000 ∧
      t.get (farOf s.tick.syncTarget) = s.pc) ∧
    (∀ s1 m w, s.tick.fetch = .word s1 m w → s1.breakpointHit = false → s.pstate.il = true →
      ∃ t, step s = .next t ∧ TookSync s1 t s.tick.syncTarget 0x3A000000 ∧ t.x = s.x ∧
        t.sp = s.sp ∧ t.get (elrOf s.tick.syncTarget) = s.pc ∧ t.pstate.il = false)

/-! RAS, power, reset -/

/-- A detected error, with error reporting enabled, raises the fault handling and error recovery
outputs that the control register enables; with it disabled it raises none and is not recorded. An
uncorrected error that an eviction has met poisons its block or is an SError. An asserted output
stays asserted over every further error and over every step, unless the step writes ERR1STATUS,
handles a Cold reset or is a request to go to On; a write that clears V deasserts it. While one is
asserted a powerdown request changes nothing; else the caches are cleaned, and memory keeps every
byte unless a line held an uncorrected error. An uncorrected error that the clean meets and that is
not deferred raises the error recovery output where that is enabled, and the core stays on
(60_exceptions.md section 4, 10_state.md section 5; the bit places and what deasserts an output are
log entry 25, which errors are deferred and what is cleaned by then log entry 39). -/
def Obligations.RasInterruptsAndPowerdown : Prop :=
  ∀ s : State,
    (bit (s.ctl .erxctlr_el1) 0 = true →
      (∀ k, k ≠ .corrected → bit (s.ctl .erxctlr_el1) 3 = true →
        (s.recordError k).ras.faultIrq = true) ∧
      (bit (s.ctl .erxctlr_el1) 8 = true → (s.recordError .corrected).ras.faultIrq = true) ∧
      (∀ k, k = .uncorrected ∨ k = .uncontainable → bit (s.ctl .erxctlr_el1) 2 = true →
        (s.recordError k).ras.errIrq = true) ∧
      ∀ k, bit ((s.recordError k).get .erxstatus_el1) 30 = true) ∧
    (bit (s.ctl .erxctlr_el1) 0 = false → ∀ k, (s.recordError k).ras = s.ras ∧
      (s.recordError k).get .erxstatus_el1 = s.get .erxstatus_el1) ∧
    (∀ k, (s.ras.faultIrq = true → (s.recordError k).ras.faultIrq = true) ∧
      (s.ras.errIrq = true → (s.recordError k).ras.errIrq = true)) ∧
    (∀ b, s.cache.met = [b] → (b ∈ s.tick.poison ∧ b ∉ s.tick.cache.bad) ∨
      s.tick.irq.serror.isSome = true) ∧
    (∀ t, KeepsRecord s → step s = .next t → StaysRaised s t) ∧
    (∀ w, bit w 30 = true → (s.writeErrStatus w).ras.faultIrq = false ∧
      (s.writeErrStatus w).ras.errIrq = false) ∧
    (∀ mode rest, mode = .off ∨ mode = .offEmulated → s.inbox = .ppu mode :: rest →
      s.power = .on → s.sleep.lowPower = .wfi → s.sleep.wakeMasked = true →
      (s.tick.ras.faultIrq = true ∨ s.tick.ras.errIrq = true →
        step s = .next { s.tick with inbox := rest }) ∧
      (s.tick.ras.faultIrq = false → s.tick.ras.errIrq = false →
        (s.tick.cache.bad = [] ∨ bit (s.tick.ctl .erxctlr_el1) 0 = false ∨
          (bit (s.tick.ctl .erxctlr_el1) 2 = false ∧ bit (s.tick.ctl .erxctlr_el1) 3 = false) →
          ∃ t, step s = .next t ∧ t.power = mode ∧ (s.tick.cache.bad = [] → t.mem = s.mem) ∧
            t.cache.l1d = [] ∧ t.cache.l2 = []) ∧
        (bit (s.tick.ctl .erxctlr_el1) 0 = true → bit (s.tick.ctl .erxctlr_el1) 2 = true →
          s.tick.cache.bad ≠ [] → (∀ b ∈ s.tick.cache.bad, b ∈ s.tick.deferred) ∨
          ∃ t, step s = .next t ∧ t.power = .on ∧ t.ras.errIrq = true ∧ t.sleep = s.sleep ∧
            t.pc = s.pc ∧ t.x = s.x ∧ t.mem = s.mem)))

/-- After a Cold or a Warm reset the core is at EL3 in AArch64 and Secure state, everything is
masked, SP_EL3 is used, IL and SS are 0, execution starts at the reset address that RVBAR_EL3
shows, and the MMU and the caches are off (70_reset_and_hazards.md section 1, which the spec gives
as general knowledge; the address is log entry 4). -/
def Obligations.ResetStartsAtEl3 : Prop :=
  ∀ (cfg : Config) (s t : State),
    t = State.resetWith cfg ∨ t = s.coldReset ∨ t = s.warmReset →
    t.pstate.el = 3 ∧ t.pstate.nRW = false ∧ t.secure = true ∧
    (t.pstate.d = true ∧ t.pstate.a = true ∧ t.pstate.i = true ∧ t.pstate.f = true) ∧
    t.pstate.sp = true ∧ t.pstate.il = false ∧ t.pstate.ss = false ∧
    t.pc = t.cfg.resetVector.setWidth 64 ∧ t.readSys .rvbar_el3 = t.pc ∧
    bit (t.get .sctlr_el3) 0 = false ∧ bit (t.get .sctlr_el3) 2 = false ∧
    bit (t.get .sctlr_el3) 12 = false ∧
    (t = s.coldReset ∨ t = s.warmReset → t.pc = s.cfg.resetVector.setWidth 64)

/-- A Cold reset sets the OS Lock, clears the activity counters and the error record and stops the
trace unit; a Warm reset keeps the debug, trace and RAS registers, the OS Lock and the trace but
maybe its last elements, and the poison attribute of the bus, and disables the trace buffer and
forgets a halt request; both open the monitor, empty the caches and lose the data that only the
caches held (70_reset_and_hazards.md section 1, 10_state.md section 8). That the enables of the trace
unit and of the trace buffer are bit 0 is the model's, PRESUMED, log entry 12; that a Warm reset
forgets a halt request is read from the spec, DEDUCED, log entry 40. -/
def Obligations.ColdAndWarmReset : Prop :=
  ∀ s : State,
    (s.coldReset.osLock = true ∧ s.coldReset.ras.faultIrq = false ∧
      s.coldReset.ras.errIrq = false ∧ s.coldReset.get .erxstatus_el1 = 0 ∧
      bit (s.coldReset.get .trcprgctlr) 0 = false ∧
      ∀ r ∈ [SysReg.amevcntr00_el0, .amevcntr01_el0, .amevcntr02_el0, .amevcntr03_el0,
        .amevcntr10_el0, .amevcntr11_el0, .amevcntr12_el0], s.coldReset.get r = 0) ∧
    (s.warmReset.osLock = s.osLock ∧ s.warmReset.ras = s.ras ∧
      s.warmReset.bus.poison = s.bus.poison ∧ s.warmReset.dbg.request = false ∧
      (∃ n, s.warmReset.trace = { s.trace with fifo := s.trace.fifo.take n }) ∧
      bit (s.warmReset.get .trblimitr_el1) 0 = false ∧
      ∀ r, r.info.group = .debug ∨ r.info.group = .trace ∨ r.info.group = .ras →
        s.warmReset.get r = s.get r) ∧
    ∀ t, t = s.coldReset ∨ t = s.warmReset → t.monitor = .opened ∧
      t.sleep.lowPower = .running ∧ t.power = .on ∧ t.cache = s.cache.invalidated ∧
      t.mem = discardDirty s.mem (s.cache.l1d ++ s.cache.l2)

/-! Other agents, buses, trace -/

/-- A write of another agent into the block the monitor holds opens it and is an event, also while
the core sleeps, and the core does not wake by it alone; into other blocks it leaves the monitor
(42_exclusive_atomic_cache.md section 1, 40_system_hint_barrier.md section 1). -/
def Obligations.RemoteWriteOpensMonitor : Prop :=
  ∀ (s : State) (key b : Nat) (bytes : List Byte) (rest : List EnvEvent),
    s.inbox = .remoteWrite key bytes :: rest → key + bytes.length ≤ 2 ^ 41 →
    s.monitorBlock = some b → Memory.wf s.mem →
    ∃ t, step s = .next t ∧ t.x = s.x ∧ t.pc = s.pc ∧ t.sleep.lowPower = s.sleep.lowPower ∧
      (∀ i, Memory.read t.mem (key + i) = (bytes[i]?).getD (Memory.read s.mem (key + i))) ∧
      KeepsMemOutside s t key bytes.length ∧
      (key < b * 64 + 64 ∧ b * 64 < key + bytes.length ∧ bytes ≠ [] →
        t.monitor = .opened ∧ t.eventReg = true) ∧
      (key + bytes.length ≤ b * 64 ∨ b * 64 + 64 ≤ key →
        t.monitor = s.monitor ∧ t.eventReg = s.eventReg)

/-- R177: each PBHA bit comes from stage 2 where that is enabled, else from stage 1 where that is,
else it is 0. -/
def Obligations.FinalPbhaBits : Prop :=
  ∀ (s1 s1En s2 s2En : BitVec 4) (i : Nat), i < 4 →
    (finalPbha s1 s1En s2 s2En).getLsbD i =
      (if s2En.getLsbD i then s2.getLsbD i else if s1En.getLsbD i then s1.getLsbD i else false)

/-- The trace FIFO takes the elements that the filters pass, in order; when it becomes full it
signals an overflow and takes none until it is emptied. With the trace unit off nothing is traced
(10_state.md sections 5 and 8, 60_exceptions.md section 13; the enabling bit is log entry 12). One
drain empties it: with the TRBE disabled to the trace bus, else the TRBE accepts what leaves it, or
discards it, or rejects it, which then stays (60_exceptions.md section 13; the model's choice, log
entry 41). -/
def Obligations.TraceFifoOverflows : Prop :=
  ∀ (s : State) (e : TraceElem),
    (s.traceOn = false → s.traceP0 e = s) ∧
    (s.tracePasses = false → s.traceP0 e = s) ∧
    (s.traceOn = true → s.trace.overflow = false →
      s.trace.fifo.length < s.cfg.traceFifoDepth →
      (s.tracePasses = false ∧ s.traceP0 e = s) ∨
      (s.tracePasses = true ∧ (s.traceP0 e).trace.fifo = s.trace.fifo ++ [e] ∧
        ((s.traceP0 e).trace.overflow = true ↔
          (s.traceP0 e).trace.fifo.length = s.cfg.traceFifoDepth))) ∧
    (s.traceOn = true → s.cfg.traceFifoDepth ≤ s.trace.fifo.length →
      (s.tracePasses = false ∧ s.traceP0 e = s) ∨
      (s.tracePasses = true ∧ (s.traceP0 e).trace = { s.trace with overflow := true })) ∧
    (s.trace.overflow = true → (s.traceP0 e).trace = s.trace) ∧
    (∀ rest tr out, s.inbox = .traceDrain :: rest → s.power = .on →
      tr = { s.tick.trace with fifo := [], overflow := false } → out = s.tick.trace.fifo →
      ∃ t, step s = .next t ∧ t.pc = s.pc ∧ t.x = s.x ∧ t.mem = s.mem ∧
        (s.tick.trbeOn = false → t.trace = { tr with sent := tr.sent ++ out }) ∧
        (s.tick.trbeOn = true → t.trace = { tr with accepted := tr.accepted ++ out } ∨
          t.trace = tr ∨ t.trace = s.tick.trace))

/-- A translation changes no register: only the TLBs, the walk's PBHA values, the lines of the
caches through which the walk reads its descriptors, and, where hardware updates descriptors, of
stage 1 and of stage 2, the eight bytes of each and what a fetch may still see of them. One that is
made ahead of the instructions, for a prefetch or a speculative access, changes no memory
(20_memory.md sections 1 to 5; that a descriptor is eight bytes is log entry 10, what a translation
made ahead leaves is log entry 46). -/
def Obligations.TranslationChangesOnlyTranslationState : Prop :=
  ∀ (s s1 : State) (va : Word) (k : AccessKind) (m : Mapped) (ahead : Bool), Memory.wf s.mem →
    s.translateFor va k ahead = .ok s1 m →
    KeepsRegs s s1 [] s.pstate.btype ∧ s1.pc = s.pc ∧ s1.monitor = s.monitor ∧
    s1.events = s.events ∧ s1.cache.l1i = s.cache.l1i ∧ s1.cache.bad = s.cache.bad ∧
    (ExclusiveCaches s.cache → ExclusiveCaches s1.cache) ∧ Memory.wf s1.mem ∧
    (s1.mem = s.mem ∨ (ahead = false ∧ ∃ w,
      (Config.walk (s.walkInput va k) = .found w ∨
        Config.walk (s.walkInput va k) = .overContiguous w) ∧
      ∀ a, (∀ u ∈ w.updates, a < memKey u.pa u.ns ∨ memKey u.pa u.ns + 8 ≤ a) →
        Memory.read s1.mem a = Memory.read s.mem a))

/-! Invariants -/

/-- Every step keeps memory in its canonical form. -/
def Obligations.StepKeepsMemoryForm : Prop :=
  ∀ s t : State, Memory.wf s.mem → step s = .next t → Memory.wf t.mem

/-- Every step keeps the bits that the spec fixes: the register widths, the reset register, the
alignment of the vector bases, the floating-point trap enables (the places of these in FPCR, bits 15
and 12 to 8, are PRESUMED, log entry 12). -/
def Obligations.StepKeepsFixedBits : Prop :=
  ∀ s t : State, FixedBits s → step s = .next t → FixedBits t

/-- Every step keeps a legal mode: AArch64, and SP_EL0 at EL0. -/
def Obligations.StepKeepsLegalMode : Prop :=
  ∀ s t : State, LegalMode s → step s = .next t → LegalMode t

/-- R227: every step keeps the L1 data cache and the L2 cache strictly exclusive. -/
def Obligations.StepKeepsCachesExclusive : Prop :=
  ∀ s t : State, ExclusiveCaches s.cache → step s = .next t → ExclusiveCaches t.cache

/-- The state after reset meets the four invariants, with every configuration. -/
def Obligations.ResetMeetsInvariants : Prop :=
  ∀ cfg : Config, Memory.wf (State.resetWith cfg).mem ∧ FixedBits (State.resetWith cfg) ∧
    LegalMode (State.resetWith cfg) ∧ ExclusiveCaches (State.resetWith cfg).cache
end

