-- ==== Sys2Proof/Laws/Memory.lean ====
section
/-! SUPPORT. The laws of memory: what a read gives after a write, and that every operation keeps the
canonical form. -/

namespace Sys2Proof.Machine

/-- A key that is not listed reads as unwritten. -/
theorem Memory.read_of_lt {m : List Host.Cell} {a : Nat} (h : ∀ c ∈ m, a < c.1) :
    Memory.read m a = Memory.unwritten := by
  induction m with
  | nil => rfl
  | cons c rest ih =>
    have hc := h c (by simp)
    simp only [Memory.read, if_neg (Nat.ne_of_lt hc)]
    exact ih fun d hd => h d (by simp [hd])

/-- A key that a write lists is the one written, or was listed before. -/
theorem Memory.mem_write {m : List Host.Cell} {a : Nat} {v : Byte} {c : Host.Cell}
    (h : c ∈ Memory.write m a v) : c = (a, v) ∧ v ≠ Memory.unwritten ∨ c ∈ m := by
  induction m with
  | nil =>
    simp only [Memory.write] at h
    split at h
    · simp at h
    · exact .inl ⟨by simpa using h, ‹_›⟩
  | cons d rest ih =>
    obtain ⟨k, b⟩ := d
    simp only [Memory.write] at h
    split at h
    · split at h
      · exact .inr h
      · rcases List.mem_cons.1 h with h | h
        · exact .inl ⟨h, ‹_›⟩
        · exact .inr h
    · split at h
      · split at h
        · exact .inr (List.mem_cons_of_mem _ h)
        · rcases List.mem_cons.1 h with h | h
          · exact .inl ⟨h, ‹_›⟩
          · exact .inr (List.mem_cons_of_mem _ h)
      · rcases List.mem_cons.1 h with h | h
        · exact .inr (by simp [h])
        · exact (ih h).imp id (List.mem_cons_of_mem _)

/-- A write of one byte keeps the canonical form. -/
theorem Memory.wf_write {m : List Host.Cell} (h : Memory.wf m) (a : Nat) (v : Byte) :
    Memory.wf (Memory.write m a v) := by
  refine ⟨?_, fun c hc => ?_⟩
  · induction m with
    | nil => simp only [Memory.write]; split <;> simp
    | cons d rest ih =>
      obtain ⟨k, b⟩ := d
      have hp := List.pairwise_cons.1 h.1
      have hrest : Memory.wf rest := ⟨hp.2, fun c hc => h.2 c (by simp [hc])⟩
      simp only [Memory.write]
      split
      · rename_i hlt
        split
        · exact h.1
        · refine List.pairwise_cons.2 ⟨fun c hc => ?_, h.1⟩
          rcases List.mem_cons.1 hc with rfl | hc
          · exact hlt
          · exact Nat.lt_trans hlt (hp.1 c hc)
      · split
        · rename_i hge heq
          split
          · exact hp.2
          · exact List.pairwise_cons.2 ⟨fun c hc => heq ▸ hp.1 c hc, hp.2⟩
        · refine List.pairwise_cons.2 ⟨fun c hc => ?_, ih hrest⟩
          rcases Memory.mem_write hc with ⟨rfl, -⟩ | hc
          · show k < a; omega
          · exact hp.1 c hc
  · rcases Memory.mem_write hc with ⟨rfl, hv⟩ | hc
    · exact hv
    · exact h.2 c hc

/-- A read after a write: the byte written at its own key, what was there at every other. -/
theorem Memory.read_write {m : List Host.Cell} (h : Memory.wf m) (a b : Nat) (v : Byte) :
    Memory.read (Memory.write m a v) b = if b = a then v else Memory.read m b := by
  induction m with
  | nil =>
    simp only [Memory.write]
    split <;> simp_all [Memory.read]
  | cons d rest ih =>
    obtain ⟨k, x⟩ := d
    have hp := List.pairwise_cons.1 h.1
    have hrest : Memory.wf rest := ⟨hp.2, fun c hc => h.2 c (by simp [hc])⟩
    simp only [Memory.write]
    split
    · rename_i hlt
      split
      · rename_i hv
        by_cases hb : b = a
        · subst hb
          rw [if_pos rfl, hv]
          refine Memory.read_of_lt fun c hc => ?_
          rcases List.mem_cons.1 hc with rfl | hc
          · exact hlt
          · exact Nat.lt_trans hlt (hp.1 c hc)
        · simp [hb]
      · simp only [Memory.read]
    · split
      · rename_i hge heq
        subst heq
        split
        · rename_i hv
          by_cases hb : b = a
          · subst hb
            rw [if_pos rfl, hv]
            exact Memory.read_of_lt fun c hc => hp.1 c hc
          · simp [Memory.read, hb]
        · by_cases hb : b = a <;> simp [Memory.read, hb]
      · rename_i hge hne
        by_cases hb : b = k
        · subst hb; simp [Memory.read, Ne.symm hne]
        · simp only [Memory.read, if_neg hb, ih hrest]

/-- A write of several bytes keeps the canonical form. -/
theorem Memory.wf_writeBytes (bs : List Byte) :
    ∀ {m : List Host.Cell} {a : Nat}, Memory.wf m → Memory.wf (Memory.writeBytes m a bs) := by
  induction bs with
  | nil => exact fun h => h
  | cons b bs ih => exact fun h => ih (Memory.wf_write h _ _)

/-- A read after a write of several bytes. -/
theorem Memory.read_writeBytes (bs : List Byte) : ∀ {m : List Host.Cell} {a b : Nat},
    Memory.wf m → Memory.read (Memory.writeBytes m a bs) b =
      if a ≤ b then (bs[b - a]?).getD (Memory.read m b) else Memory.read m b := by
  induction bs with
  | nil => intro m a b h; simp [Memory.writeBytes]
  | cons v bs ih =>
    intro m a b h
    rw [Memory.writeBytes, ih (Memory.wf_write h a v), Memory.read_write h]
    by_cases h1 : a + 1 ≤ b
    · have e : b - a = (b - (a + 1)) + 1 := by omega
      have hb : b ≠ a := by omega
      rw [if_pos h1, if_pos (show a ≤ b by omega), e, List.getElem?_cons_succ, if_neg hb]
    · by_cases h2 : b = a
      · subst h2; simp
      · rw [if_neg h1, if_neg h2, if_neg (show ¬a ≤ b by omega)]

/-- Bytes outside a write stay as they were. -/
theorem Memory.read_writeBytes_of_out {m : List Host.Cell} (h : Memory.wf m) {a b : Nat}
    {bs : List Byte} (ho : b < a ∨ a + bs.length ≤ b) :
    Memory.read (Memory.writeBytes m a bs) b = Memory.read m b := by
  rw [Memory.read_writeBytes bs h]
  split
  · rw [List.getElem?_eq_none (by omega)]; rfl
  · rfl

@[simp] theorem length_bytesOf (n : Nat) (v : Data) : (bytesOf n v).length = n := by
  induction n generalizing v with
  | zero => rfl
  | succ n ih => simp [bytesOf, ih]

@[simp] theorem Memory.length_readBytes (m : List Host.Cell) (a n : Nat) :
    (Memory.readBytes m a n).length = n := by
  induction n generalizing a with
  | zero => rfl
  | succ n ih => simp [Memory.readBytes, ih]

theorem Memory.getElem_readBytes (m : List Host.Cell) (n : Nat) : ∀ (a i : Nat), i < n →
    (Memory.readBytes m a n)[i]? = some (Memory.read m (a + i)) := by
  induction n with
  | zero => intro a i h; omega
  | succ n ih =>
    intro a i h
    cases i with
    | zero => simp [Memory.readBytes]
    | succ i =>
      rw [Memory.readBytes, List.getElem?_cons_succ, ih _ _ (by omega)]
      congr 2; omega

/-- Reading back the bytes just written. -/
theorem Memory.readBytes_writeBytes {m : List Host.Cell} (h : Memory.wf m) (a : Nat)
    (bs : List Byte) : Memory.readBytes (Memory.writeBytes m a bs) a bs.length = bs := by
  refine List.ext_getElem? fun i => ?_
  by_cases hi : i < bs.length
  · rw [Memory.getElem_readBytes _ _ _ _ hi, Memory.read_writeBytes bs h, if_pos (by omega)]
    simp [hi]
  · rw [List.getElem?_eq_none (by simp; omega), List.getElem?_eq_none (by omega)]

/-- Bytes that agree read as the same value. -/
theorem Memory.readLE_congr {m m' : List Host.Cell} {a n : Nat}
    (h : ∀ b, a ≤ b → b < a + n → Memory.read m b = Memory.read m' b) :
    Memory.readLE m a n = Memory.readLE m' a n := by
  unfold Memory.readLE
  congr 1
  refine List.ext_getElem? fun i => ?_
  by_cases hi : i < n
  · rw [Memory.getElem_readBytes _ _ _ _ hi, Memory.getElem_readBytes _ _ _ _ hi,
      h _ (by omega) (by omega)]
  · rw [List.getElem?_eq_none (by simp; omega), List.getElem?_eq_none (by simp; omega)]

theorem lowBytes_succ (n : Nat) (v : Data) :
    lowBytes (n + 1) v = (v.setWidth 8).setWidth 128 ||| (lowBytes n (v >>> 8) <<< 8) := by
  apply BitVec.eq_of_getLsbD_eq
  intro i hi
  simp only [lowBytes, BitVec.getLsbD_setWidth, BitVec.getLsbD_or, BitVec.getLsbD_shiftLeft,
    BitVec.getLsbD_ushiftRight]
  by_cases h8 : i < 8
  · simp [h8, hi]; omega
  · have e : 8 + (i - 8) = i := by omega
    have c : (i - 8 < 8 * n) = (i < 8 * (n + 1)) := by simp; omega
    simp [h8, hi, e, c, show i - 8 < 128 by omega]

/-- The value of the little-endian bytes of a value is its low bytes. -/
theorem ofBytes_bytesOf (n : Nat) : ∀ v : Data, ofBytes (bytesOf n v) = lowBytes n v := by
  induction n with
  | zero => intro v; simp [bytesOf, ofBytes, lowBytes, BitVec.of_length_zero]
  | succ n ih => intro v; rw [bytesOf, ofBytes, ih, lowBytes_succ]

/-- A value just stored reads back, in its low bytes (R250). -/
theorem Memory.readLE_writeLE {m : List Host.Cell} (h : Memory.wf m) (a n : Nat) (v : Data) :
    Memory.readLE (Memory.writeLE m a n v) a n = lowBytes n v := by
  have := Memory.readBytes_writeBytes h a (bytesOf n v)
  rw [length_bytesOf] at this
  rw [Memory.readLE, Memory.writeLE, this, ofBytes_bytesOf]

end Sys2Proof.Machine
end

