-- ==== Sys2Proof/Laws/Caches.lean ====
section
/-! SUPPORT. What changes of the lists of lines keep: the L1 data cache and the L2 cache stay
strictly exclusive (R227). -/

namespace Sys2Proof.Machine

/-- Only the lines of the two caches matter. -/
theorem ExclusiveCaches.of_eq {c d : Caches} (h : ExclusiveCaches c) (h1 : d.l1d = c.l1d)
    (h2 : d.l2 = c.l2) : ExclusiveCaches d :=
  ⟨h1 ▸ h.once, by rw [h1, h2]; exact h.disjoint, by rw [h1, h2]; exact h.below⟩

/-- No lines, no block twice. -/
theorem ExclusiveCaches.of_nil {c : Caches} (h1 : c.l1d = []) (h2 : c.l2 = []) :
    ExclusiveCaches c := by
  refine ⟨?_, ?_, ?_⟩ <;> simp [h1, h2]

/-- Dropping lines, and changing lines in ways that keep their block and do not lengthen what they
keep, keeps the caches exclusive. -/
theorem ExclusiveCaches.sub {c d : Caches} (h : ExclusiveCaches c)
    (h1 : d.l1d.Sublist c.l1d) (h2 : ∀ b ∈ d.l2, b ∈ c.l2) : ExclusiveCaches d where
  once := h.once.sublist h1
  disjoint a ha b hb := h.disjoint a (h1.subset ha) b (h2 b hb)
  below a ha := by
    rcases List.mem_append.1 ha with ha | ha
    · exact h.below a (List.mem_append_left _ (h1.subset ha))
    · exact h.below a (List.mem_append_right _ (h2 a ha))

/-- A change of lines that keeps their blocks. -/
theorem ExclusiveCaches.map {c d : Caches} (h : ExclusiveCaches c) (f g : CacheLine → CacheLine)
    (h1 : d.l1d = c.l1d.map f) (h2 : d.l2 = c.l2.map g)
    (hf : ∀ e ∈ c.l1d, (f e).block = e.block ∧ (f e).below.length ≤ 64)
    (hg : ∀ e ∈ c.l2, (g e).block = e.block ∧ (g e).below.length ≤ 64) : ExclusiveCaches d where
  once := by
    rw [h1]
    refine List.pairwise_map.2 (h.once.imp_of_mem ?_)
    intro a b ha hb hab
    rw [(hf a ha).1, (hf b hb).1]; exact hab
  disjoint a ha b hb := by
    rw [h1] at ha; rw [h2] at hb
    obtain ⟨a', ha', rfl⟩ := List.mem_map.1 ha
    obtain ⟨b', hb', rfl⟩ := List.mem_map.1 hb
    rw [(hf a' ha').1, (hg b' hb').1]
    exact h.disjoint a' ha' b' hb'
  below a ha := by
    rw [h1, h2] at ha
    rcases List.mem_append.1 ha with ha | ha
    · obtain ⟨a', ha', rfl⟩ := List.mem_map.1 ha
      exact (hf a' ha').2
    · obtain ⟨a', ha', rfl⟩ := List.mem_map.1 ha
      exact (hg a' ha').2

theorem mem_dropBlock {l : List CacheLine} {b : Nat} {e : CacheLine} :
    e ∈ dropBlock l b ↔ e ∈ l ∧ e.block ≠ b := by
  simp [dropBlock]

theorem holdsBlock_dropBlock (l : List CacheLine) (b : Nat) : holdsBlock (dropBlock l b) b = false := by
  simp [holdsBlock, dropBlock]

/-- A line put into the L1 data cache leaves the caches exclusive (R227). -/
theorem ExclusiveCaches.insertL1 {c : Caches} (h : ExclusiveCaches c) (line : CacheLine)
    (set way : Nat) (hl : line.below.length ≤ 64) : ExclusiveCaches (c.insertL1 line set way) where
  once := by
    unfold Caches.insertL1
    refine List.pairwise_cons.2 ⟨fun a ha => ?_, ?_⟩
    · have := (mem_dropBlock.1 (List.mem_of_mem_filter ha)).2
      exact fun e => this e.symm
    · exact h.once.sublist (List.filter_sublist.trans List.filter_sublist)
  disjoint a ha b hb := by
    unfold Caches.insertL1 at ha hb
    dsimp only at ha hb
    rcases List.mem_append.1 hb with hb | hb
    · obtain ⟨v, hv0, rfl⟩ := List.mem_map.1 hb
      have hv := List.mem_of_mem_filter hv0
      show a.block ≠ v.block
      have hv' := mem_dropBlock.1 (List.mem_of_mem_filter hv)
      rcases List.mem_cons.1 ha with rfl | ha
      · exact fun e => hv'.2 e.symm
      · obtain ⟨ha1, ha2⟩ := List.mem_filter.1 ha
        intro e
        have : (List.filter (fun e => lineAt e line.set line.way) (dropBlock c.l1d line.block)).any
            (fun w => w.block == a.block) = true :=
          List.any_eq_true.2 ⟨v, hv, by simp [e]⟩
        simp [this] at ha2
    · obtain ⟨hb1, hb2⟩ := List.mem_filter.1 hb
      have hb' := mem_dropBlock.1 (List.mem_of_mem_filter hb1)
      rcases List.mem_cons.1 ha with rfl | ha
      · exact fun e => hb'.2 e.symm
      · exact h.disjoint a (mem_dropBlock.1 (List.mem_of_mem_filter ha)).1 b hb'.1
  below a ha := by
    unfold Caches.insertL1 at ha
    dsimp only at ha
    rcases List.mem_append.1 ha with ha | ha
    · rcases List.mem_cons.1 ha with rfl | ha
      · exact hl
      · exact h.below a (List.mem_append_left _ (mem_dropBlock.1 (List.mem_of_mem_filter ha)).1)
    · rcases List.mem_append.1 ha with ha | ha
      · obtain ⟨v, hv0, rfl⟩ := List.mem_map.1 ha
        have hv := List.mem_of_mem_filter hv0
        exact h.below v (List.mem_append_left _ (mem_dropBlock.1 (List.mem_of_mem_filter hv)).1)
      · exact h.below a (List.mem_append_right _
          (mem_dropBlock.1 (List.mem_of_mem_filter (List.mem_of_mem_filter ha))).1)

/-- A line put into the L2 cache, where neither cache holds its block. -/
theorem ExclusiveCaches.insertL2 {c : Caches} (h : ExclusiveCaches c) (line : CacheLine)
    (hl : line.below.length ≤ 64) : ExclusiveCaches (c.insertL2 line) := by
  unfold Caches.insertL2
  split
  · exact h
  · rename_i hn
    simp only [Bool.or_eq_true, not_or, Bool.not_eq_true] at hn
    refine ⟨h.once, fun a ha b hb => ?_, fun a ha => ?_⟩
    · rcases List.mem_cons.1 hb with rfl | hb
      · have := List.any_eq_false.1 hn.1 a ha
        simpa using this
      · exact h.disjoint a ha b (List.mem_of_mem_filter hb)
    · rcases List.mem_append.1 ha with ha | ha
      · exact h.below a (List.mem_append_left _ ha)
      · rcases List.mem_cons.1 ha with rfl | ha
        · exact hl
        · exact h.below a (List.mem_append_right _ (List.mem_of_mem_filter ha))

theorem length_blockBytes (m : List Host.Cell) (b : Nat) : (blockBytes m b).length = 64 := by
  simp [blockBytes]

theorem dirtied_block (e : CacheLine) (old : List Byte) : (dirtied e old).block = e.block := by
  unfold dirtied; split <;> rfl

theorem dirtied_below {e : CacheLine} {old : List Byte} (he : e.below.length ≤ 64)
    (ho : old.length ≤ 64) : (dirtied e old).below.length ≤ 64 := by
  unfold dirtied; split
  · exact he
  · exact ho

theorem ExclusiveCaches.below1 {c : Caches} (h : ExclusiveCaches c) {e : CacheLine}
    (he : e ∈ c.l1d) : e.below.length ≤ 64 := h.below e (List.mem_append_left _ he)

theorem ExclusiveCaches.below2 {c : Caches} (h : ExclusiveCaches c) {e : CacheLine}
    (he : e ∈ c.l2) : e.below.length ≤ 64 := h.below e (List.mem_append_right _ he)

/-- A function that marks lines as stored to keeps their blocks. -/
theorem mark_keeps {e : CacheLine} {b : Nat} {old : List Byte} (he : e.below.length ≤ 64)
    (ho : old.length ≤ 64) :
    (if e.block == b then dirtied e old else e).block = e.block ∧
      (if e.block == b then dirtied e old else e).below.length ≤ 64 := by
  split
  · exact ⟨dirtied_block e old, dirtied_below he ho⟩
  · exact ⟨rfl, he⟩

/-- Marking one block as stored to, in either cache or in both, keeps them exclusive. -/
theorem ExclusiveCaches.dirty {c d : Caches} (h : ExclusiveCaches c) (b : Nat) (old : List Byte)
    (ho : old.length ≤ 64) (h1 : d.l1d = c.l1d ∨ d.l1d = dirtyBlock c.l1d b old)
    (h2 : d.l2 = c.l2 ∨ d.l2 = dirtyBlock c.l2 b old) : ExclusiveCaches d := by
  have hf : ∀ e ∈ c.l1d, _ := fun e he => mark_keeps (b := b) (h.below1 he) ho
  have hg : ∀ e ∈ c.l2, _ := fun e he => mark_keeps (b := b) (h.below2 he) ho
  have i1 : ∀ e ∈ c.l1d, (id e).block = e.block ∧ (id e).below.length ≤ 64 :=
    fun e he => ⟨rfl, h.below1 he⟩
  have i2 : ∀ e ∈ c.l2, (id e).block = e.block ∧ (id e).below.length ≤ 64 :=
    fun e he => ⟨rfl, h.below2 he⟩
  rcases h1 with h1 | h1 <;> rcases h2 with h2 | h2
  · exact h.of_eq h1 h2
  · exact h.map id _ (by simpa using h1) h2 i1 hg
  · exact h.map _ id h1 (by simpa using h2) hf i2
  · exact h.map _ _ h1 h2 hf hg

/-- A store past the caches keeps them exclusive. -/
theorem ExclusiveCaches.through {c : Caches} (h : ExclusiveCaches c) (key : Nat) (bs : List Byte) :
    ExclusiveCaches (c.through key bs) := by
  have put (e : CacheLine) (he : e.below.length ≤ 64) :
      (if e.block == blockOf key && e.mesi == .modified then
        { e with below := patchBytes e.below (key % 64) bs } else e).block = e.block ∧
      (if e.block == blockOf key && e.mesi == .modified then
        { e with below := patchBytes e.below (key % 64) bs } else e).below.length ≤ 64 := by
    split
    · exact ⟨rfl, by simp [patchBytes]⟩
    · exact ⟨rfl, he⟩
  exact h.map _ _ rfl rfl (fun e he => put e (h.below1 he)) (fun e he => put e (h.below2 he))

/-- What a walk leaves of the caches: they stay exclusive, and nothing but lines of the L1 data
cache and the L2 cache, and the older words and bytes to be seen, is changed. -/
structure CachesWalked (c d : Caches) : Prop where
  exclusive : ExclusiveCaches c → ExclusiveCaches d
  bad : d.bad = c.bad
  l1i : d.l1i = c.l1i
  lookups : d.lookups = c.lookups
  evictions : d.evictions = c.evictions

theorem CachesWalked.refl (c : Caches) : CachesWalked c c := ⟨id, rfl, rfl, rfl, rfl⟩

theorem CachesWalked.trans {c d e : Caches} (h : CachesWalked c d) (g : CachesWalked d e) :
    CachesWalked c e :=
  ⟨g.exclusive ∘ h.exclusive, g.bad.trans h.bad, g.l1i.trans h.l1i, g.lookups.trans h.lookups,
    g.evictions.trans h.evictions⟩

/-- A line put into the L2 cache. -/
theorem CachesWalked.insertL2 (c : Caches) (line : CacheLine) (hl : line.below.length ≤ 64) :
    CachesWalked c (c.insertL2 line) := by
  refine ⟨fun h => h.insertL2 line hl, ?_, ?_, ?_, ?_⟩ <;> (unfold Caches.insertL2; split <;> rfl)

/-- The descriptors of a walk. -/
theorem State.walkCaches_walked (s : State) (l : List Nat) : ∀ (i : Nat) (c : Caches),
    CachesWalked c (s.walkCaches i l c) := by
  induction l with
  | nil => exact fun _ c => .refl c
  | cons b rest ih =>
    intro i c
    rw [State.walkCaches]
    refine CachesWalked.trans ?_ (ih _ _)
    split
    · exact .insertL2 c _ (by simp [State.newL2Line])
    · exact .refl c

/-- The caches without a block are exclusive. -/
theorem ExclusiveCaches.without {c : Caches} (h : ExclusiveCaches c) (b : Nat) :
    ExclusiveCaches (c.without b) :=
  h.sub List.filter_sublist fun _ he => List.mem_of_mem_filter he

/-- Losing dirty lines keeps the canonical form of memory. -/
theorem discardDirty_wf (l : List CacheLine) : ∀ {m : List Host.Cell}, Memory.wf m →
    Memory.wf (discardDirty m l) := by
  induction l with
  | nil => exact fun h => h
  | cons e rest ih =>
    intro m h
    rw [discardDirty]
    split
    · exact ih (Memory.wf_writeBytes _ h)
    · exact ih h

end Sys2Proof.Machine
end

