-- ==== Sys2Proof/Laws/State.lean ====
section
/-! SUPPORT. One lemma per field and update of the state: what each small update leaves as it was,
and what the fields it changes become. -/

namespace Sys2Proof.Machine

/-- The core instance number is one of 0 to NUM_CORES - 1 (R16). -/
theorem coreId_lt_numCores (c : Config) : c.coreId < c.numCores := by
  unfold Config.numCores; omega

/-! System registers -/

/-- Two registers at one place are one register. -/
theorem SysReg.idx_inj {r q : SysReg} (h : r.idx = q.idx) : r = q := by
  have e : SysReg.ofNat r.ctorIdx = SysReg.ofNat q.ctorIdx := by
    have : r.ctorIdx = q.ctorIdx := by simpa [SysReg.idx] using congrArg Fin.val h
    rw [this]
  have hr : ∀ t : SysReg, SysReg.ofNat t.ctorIdx = t := by intro t; cases t <;> rfl
  rwa [hr, hr] at e

/-- Reading a system register after a write of one. -/
theorem State.get_put (s : State) (r q : SysReg) (v : Word) :
    (s.put r v).get q = if q = r then v else s.get q := by
  unfold State.get State.put
  by_cases h : q = r
  · subst h; simp
  · have : r.idx.val ≠ q.idx.val := fun e => h (SysReg.idx_inj (Fin.ext e)).symm
    simp [this, h]

@[simp] theorem State.get_put_self (s : State) (r : SysReg) (v : Word) :
    (s.put r v).get r = v := by simp [State.get_put]

/-! The beginning of a step: which fields the counters, an eviction and an injection may change -/

/-- Reading a system register after a unit has changed one. -/
theorem State.get_putByUnit (s : State) (r q : SysReg) (f : Word → Word) :
    (s.putByUnit r f).get q = if q = r then f (s.get r) else s.get q := s.get_put r q _

/-- A system register that a counter, the trace unit or an error record may change on its own. -/
def counted (r : SysReg) : Bool :=
  match r with
  | .pmevcntr0_el0 | .pmevcntr1_el0 | .pmevcntr2_el0 | .pmevcntr3_el0 | .pmevcntr4_el0 |
  .pmevcntr5_el0 | .pmevcntr6_el0 | .pmevcntr7_el0 | .pmevcntr8_el0 | .pmevcntr9_el0 |
  .pmevcntr10_el0 | .pmevcntr11_el0 | .pmevcntr12_el0 | .pmevcntr13_el0 | .pmevcntr14_el0 |
  .pmevcntr15_el0 | .pmevcntr16_el0 | .pmevcntr17_el0 | .pmevcntr18_el0 | .pmevcntr19_el0 |
  .pmccntr_el0 | .pmovsset_el0 | .amevcntr00_el0 | .amevcntr01_el0 | .amevcntr02_el0 |
  .amevcntr03_el0 | .amevcntr10_el0 | .amevcntr11_el0 | .amevcntr12_el0 | .trccntvr0 | .trccntvr1
  | .erxstatus_el1 | .erxaddr_el1 | .erxmisc0_el1 | .erxmisc1_el1 => true
  | _ => false

/-- `t` is `s` but for what counts and what an error reports: such system registers, with their old
values, the system counter, the trace unit, the RAS unit, the pending SError, and the draw number.
No interrupt output of the RAS unit is deasserted (R486). -/
structure Ticks (s t : State) : Prop where
  eq : t = { s with sys := t.sys, unsynced := t.unsynced, sysCount := t.sysCount, trace := t.trace
                    ras := t.ras, irq := t.irq, draws := t.draws }
  get : ∀ r, counted r = false → t.get r = s.get r
  lines : t.irq = { s.irq with serror := t.irq.serror }
  held : s.irq.serror.isSome = true → t.irq.serror = s.irq.serror
  fault : s.ras.faultIrq = true → t.ras.faultIrq = true
  recovery : s.ras.errIrq = true → t.ras.errIrq = true

theorem Ticks.refl (s : State) : Ticks s s := ⟨rfl, fun _ _ => rfl, rfl, fun _ => rfl, id, id⟩

theorem Ticks.trans {s t u : State} (h : Ticks s t) (g : Ticks t u) : Ticks s u :=
  ⟨by rw [g.eq, h.eq], fun r hr => (g.get r hr).trans (h.get r hr), by rw [g.lines, h.lines],
    fun hs => (g.held (by rw [h.held hs]; exact hs)).trans (h.held hs), g.fault ∘ h.fault,
    g.recovery ∘ h.recovery⟩

theorem Ticks.put {s t : State} (h : Ticks s t) (r : SysReg) (v : Word) (hr : counted r = true) :
    Ticks s (t.put r v) :=
  h.trans ⟨rfl, fun q hq => by
    have : q ≠ r := by rintro rfl; simp [hr] at hq
    simp [State.get_put, this], rfl, fun _ => rfl, id, id⟩

theorem Ticks.unit {s t : State} (h : Ticks s t) (r : SysReg) (f : Word → Word)
    (hr : counted r = true) : Ticks s (t.putByUnit r f) :=
  (h.put r _ hr).trans ⟨rfl, fun _ _ => rfl, rfl, fun _ => rfl, id, id⟩

/-- Updates one after another. -/
theorem Ticks.foldl {α : Type} (f : State → α → State) (l : List α)
    (h : ∀ t, ∀ p ∈ l, Ticks t (f t p)) (s : State) : Ticks s (l.foldl f s) := by
  induction l generalizing s with
  | nil => exact .refl s
  | cons p l ih =>
    exact (h s p (by simp)).trans (ih (fun t q hq => h t q (by simp [hq])) _)

theorem State.countPmu_ticks (s : State) : Ticks s s.countPmu := by
  have hc : ∀ p ∈ pmuCounters, counted p.1 = true := by decide
  refine Ticks.foldl _ _ (fun t p hp => ?_) _
  split
  · exact ((Ticks.refl t).unit _ _ (hc p hp)).unit _ _ rfl
  · exact .refl t

theorem State.countAmu_ticks (s : State) : Ticks s s.countAmu := by
  have hc : ∀ p ∈ amuCounters, counted p.1 = true := by decide
  refine Ticks.foldl _ _ (fun t p hp => ?_) _
  split
  · exact (Ticks.refl t).unit _ _ (hc p hp)
  · exact .refl t

theorem Ticks.trace (t : State) (x : TraceUnit) : Ticks t { t with trace := x } :=
  ⟨rfl, fun _ _ => rfl, rfl, fun _ => rfl, id, id⟩

theorem State.traceOutputs_ticks (s : State) : Ticks s s.traceOutputs := .trace _ _

theorem State.countTrace_ticks (s : State) : Ticks s s.countTrace := by
  unfold State.countTrace
  exact ((((Ticks.refl s).unit .trccntvr0 _ rfl).unit .trccntvr1 _ rfl).trans (.trace _ _)).trans
    (State.traceOutputs_ticks _)

theorem State.count_ticks (s : State) : Ticks s s.count := by
  have h0 : Ticks s { s with sysCount := s.notBelow s.sysCount 0 } :=
    ⟨rfl, fun _ _ => rfl, rfl, fun _ => rfl, id, id⟩
  have pmu (c : Bool) (t : State) : Ticks t (if c then t.countPmu else t) := by
    split
    · exact t.countPmu_ticks
    · exact .refl t
  have amu (c : Bool) (t : State) : Ticks t (if c then t.countAmu else t) := by
    split
    · exact t.countAmu_ticks
    · exact .refl t
  have trc (c : Bool) (t : State) : Ticks t (if c then t.countTrace else t) := by
    split
    · exact t.countTrace_ticks
    · exact .refl t
  exact ((h0.trans (pmu _ _)).trans (amu _ _)).trans (trc _ _)

theorem State.bumpPmu_ticks (s : State) (r : SysReg) (n : Nat) (h : counted r = true) :
    Ticks s (s.bumpPmu r n) := by
  unfold State.bumpPmu
  dsimp only
  split
  · exact ((Ticks.refl s).unit _ _ h).unit _ _ rfl
  · exact (Ticks.refl s).unit _ _ h

theorem State.countMemoryError_ticks (s : State) : Ticks s s.countMemoryError := by
  unfold State.countMemoryError
  have hc : ∀ p ∈ (pmevcntrs.zip pmevtypers).zipIdx, counted p.1.1 = true := by decide
  dsimp only
  have h : Ticks s ((pmevcntrs.zip pmevtypers).zipIdx.foldl (fun t p =>
      if s.pmuCounts p.2 && field (s.ctl p.1.2) 0 16 == memoryError then t.bumpPmu p.1.1 p.2
      else t) s) := by
    refine Ticks.foldl _ _ (fun t p hp => ?_) s
    split
    · exact t.bumpPmu_ticks _ _ (hc p hp)
    · exact .refl t
  split
  · exact (h.trans (.trace _ _)).trans (State.traceOutputs_ticks _)
  · exact h

@[simp] theorem State.bumpPmu_ras (s : State) (r : SysReg) (n : Nat) :
    (s.bumpPmu r n).ras = s.ras := by
  unfold State.bumpPmu; dsimp only; split <;> rfl

/-- The event MEMORY_ERROR changes no interrupt output. -/
@[simp] theorem State.countMemoryError_ras (s : State) : s.countMemoryError.ras = s.ras := by
  have h (l : List ((SysReg × SysReg) × Nat)) (t : State) : (l.foldl (fun t p =>
      if s.pmuCounts p.2 && field (s.ctl p.1.2) 0 16 == memoryError then t.bumpPmu p.1.1 p.2
      else t) t).ras = t.ras := by
    induction l generalizing t with
    | nil => rfl
    | cons p l ih => rw [List.foldl_cons, ih]; split <;> simp
  unfold State.countMemoryError
  dsimp only
  split
  · exact h _ s
  · exact h _ s

/-- An error that is reported raises interrupt outputs and lowers none (R483 to R486). -/
theorem State.reportError_ticks (s : State) (k : ErrorKind) : Ticks s (s.reportError k) := by
  have h := (Ticks.refl s).put .erxstatus_el1 (s.get .erxstatus_el1 ||| errStatusBits k) rfl
  have raise (t : State) (f e : Bool) : Ticks t { t with ras := { t.ras with
      faultIrq := t.ras.faultIrq || f, errIrq := t.ras.errIrq || e } } :=
    ⟨rfl, fun _ _ => rfl, rfl, fun _ => rfl, fun h => by simp [h], fun h => by simp [h]⟩
  unfold State.reportError
  dsimp only
  split
  · exact (h.unit _ _ rfl).trans (raise _ _ _)
  · exact ((h.unit _ _ rfl).unit _ _ rfl).trans (raise _ _ _)

theorem State.recordError_ticks (s : State) (k : ErrorKind) : Ticks s (s.recordError k) := by
  unfold State.recordError
  dsimp only
  split
  · exact s.countMemoryError_ticks.trans (State.reportError_ticks _ _)
  · exact s.countMemoryError_ticks

theorem State.pendWith_ticks (s : State) (i : BitVec 25) : Ticks s (s.pendWith i) :=
  ⟨rfl, fun _ _ => rfl, rfl, fun h => by
    obtain ⟨v, hv⟩ := Option.isSome_iff_exists.mp h
    simp [State.pendWith, hv], id, id⟩

theorem State.fireInjection_ticks (s : State) : Ticks s s.fireInjection := by
  unfold State.fireInjection
  split
  · split
    · rename_i a _ _
      have h : Ticks s ({ s with ras := { s.ras with armed := none } }.recordError a.kind) :=
        Ticks.trans (t := { s with ras := { s.ras with armed := none } })
          ⟨rfl, fun _ _ => rfl, rfl, fun _ => rfl, id, id⟩ (State.recordError_ticks _ _)
      dsimp only
      split
      · exact h.trans (State.pendWith_ticks _ _)
      · exact h
    · exact .refl s
  · exact .refl s

/-- As `Ticks`, but errors that lie in lines may have been deferred, their blocks poisoned (R488). -/
structure Begins (s t : State) : Prop where
  eq : t = { s with sys := t.sys, unsynced := t.unsynced, poison := t.poison
                    cache := { s.cache with bad := t.cache.bad, met := t.cache.met }
                    sysCount := t.sysCount, trace := t.trace, ras := t.ras, irq := t.irq
                    draws := t.draws }
  get : ∀ r, counted r = false → t.get r = s.get r
  lines : t.irq = { s.irq with serror := t.irq.serror }
  held : s.irq.serror.isSome = true → t.irq.serror = s.irq.serror
  fault : s.ras.faultIrq = true → t.ras.faultIrq = true
  recovery : s.ras.errIrq = true → t.ras.errIrq = true
  fewer : ∀ b ∈ t.cache.bad, b ∈ s.cache.bad

theorem Ticks.begins {s t : State} (h : Ticks s t) : Begins s t :=
  ⟨by rw [h.eq], h.get, h.lines, h.held, h.fault, h.recovery, by rw [h.eq]; exact fun _ => id⟩

theorem Begins.trans {s t u : State} (h : Begins s t) (g : Begins t u) : Begins s u :=
  ⟨by rw [g.eq, h.eq], fun r hr => (g.get r hr).trans (h.get r hr), by rw [g.lines, h.lines],
    fun hs => (g.held (by rw [h.held hs]; exact hs)).trans (h.held hs), g.fault ∘ h.fault,
    g.recovery ∘ h.recovery, fun b hb => h.fewer b (g.fewer b hb)⟩

/-- What an error that an eviction has met does: it is recorded, and pends an SError or poisons its
block (R488). -/
theorem State.meetError_begins (s : State) (b : Nat) : Begins s (s.meetError b) := by
  unfold State.meetError
  dsimp only
  split
  · exact (s.recordError_ticks _).begins.trans
      ⟨rfl, fun _ _ => rfl, rfl, fun _ => rfl, id, id, fun _ hb => List.mem_of_mem_filter hb⟩
  · exact ((s.recordError_ticks _).trans (State.pendWith_ticks _ _)).begins

theorem State.meetEvicted_begins (s : State) : Begins s s.meetEvicted := by
  have go (l : List Nat) : ∀ t : State, Begins t (l.foldl State.meetError t) := by
    induction l with
    | nil => exact fun t => (Ticks.refl t).begins
    | cons b l ih => exact fun t => (t.meetError_begins b).trans (ih _)
  exact Begins.trans (t := { s with cache := { s.cache with met := [] } })
    ⟨rfl, fun _ _ => rfl, rfl, fun _ => rfl, id, id, fun _ => id⟩ (go _ _)

/-- With no error met by an eviction there is nothing to report. -/
theorem State.meetEvicted_none {s : State} (h : s.cache.met = []) : s.meetEvicted = s := by
  unfold State.meetEvicted
  rw [h, List.foldl_nil, ← h]

/-- The change of the draw number that ends the beginning of a step. -/
theorem Ticks.drawn (s : State) (n : Nat) : Ticks s { s with draws := n } :=
  ⟨rfl, fun _ _ => rfl, rfl, fun _ => rfl, id, id⟩

theorem State.tick_begins (s : State) : Begins s s.tick :=
  (s.count_ticks.begins.trans s.count.meetEvicted_begins).trans
    (s.count.meetEvicted.fireInjection_ticks.trans (.drawn _ _)).begins

/-- A step that begins with no error met by an eviction. -/
theorem State.tick_ticks {s : State} (h : s.cache.met = []) : Ticks s s.tick := by
  have hc : s.count.cache = s.cache := by rw [s.count_ticks.eq]
  have hm : s.count.meetEvicted = s.count := State.meetEvicted_none (hc ▸ h)
  unfold State.tick
  rw [hm]
  exact (s.count_ticks.trans s.count.fireInjection_ticks).trans (.drawn _ _)

/-- A register that nothing counts reads the same at the beginning of a step. -/
theorem State.tick_get (s : State) (r : SysReg) (h : counted r = false) : s.tick.get r = s.get r :=
  s.tick_begins.get r h

/-- What `tick` may change. -/
theorem State.tick_eq (s : State) : s.tick = { s with
    sys := s.tick.sys, unsynced := s.tick.unsynced, poison := s.tick.poison
    cache := { s.cache with bad := s.tick.cache.bad, met := s.tick.cache.met }
    sysCount := s.tick.sysCount, trace := s.tick.trace, ras := s.tick.ras
    irq := s.tick.irq, draws := s.tick.draws } := s.tick_begins.eq

/-- The lines of the caches, and what a fetch and a load may see of older memory, stay. -/
theorem State.tick_cache (s : State) : s.tick.cache =
    { s.cache with bad := s.tick.cache.bad, met := s.tick.cache.met } :=
  congrArg State.cache s.tick_eq

/-- With no error met by an eviction the caches stay as they are, and the poisoned blocks do. -/
theorem State.tick_cache_of_met {s : State} (h : s.cache.met = []) : s.tick.cache = s.cache := by
  rw [(State.tick_ticks h).eq]
theorem State.tick_poison_of_met {s : State} (h : s.cache.met = []) : s.tick.poison = s.poison := by
  rw [(State.tick_ticks h).eq]

/-- Every error that an eviction has met is reported at the beginning of a step. -/
@[simp] theorem State.tick_met (s : State) : s.tick.cache.met = [] := by
  have one (t : State) (b : Nat) : (t.meetError b).cache.met = t.cache.met := by
    have h (k : ErrorKind) : (t.recordError k).cache = t.cache := by rw [(t.recordError_ticks k).eq]
    unfold State.meetError
    dsimp only
    split
    · show (t.recordError _).cache.met = _
      rw [h]
    · show (t.recordError _).cache.met = _
      rw [h]
  have go (l : List Nat) : ∀ t : State, (l.foldl State.meetError t).cache.met = t.cache.met := by
    induction l with
    | nil => exact fun _ => rfl
    | cons b l ih => exact fun t => (ih _).trans (one t b)
  show s.count.meetEvicted.fireInjection.cache.met = []
  rw [s.count.meetEvicted.fireInjection_ticks.eq]
  exact go _ _

/-- The interrupt inputs at the beginning of a step are those before it. -/
theorem State.tick_irq (s : State) : s.tick.irq = { s.irq with serror := s.tick.irq.serror } :=
  s.tick_begins.lines

/-- A pending SError stays as it is at the beginning of a step (log entry 62). -/
theorem State.tick_serror (s : State) (h : s.irq.serror.isSome = true) :
    s.tick.irq.serror = s.irq.serror := s.tick_begins.held h

/-! `put` -/

@[simp] theorem State.put_cfg (s : State) (r : SysReg) (v : Word) : (s.put r v).cfg = s.cfg := rfl
@[simp] theorem State.put_x (s : State) (r : SysReg) (v : Word) : (s.put r v).x = s.x := rfl
@[simp] theorem State.put_sp (s : State) (r : SysReg) (v : Word) : (s.put r v).sp = s.sp := rfl
@[simp] theorem State.put_pc (s : State) (r : SysReg) (v : Word) : (s.put r v).pc = s.pc := rfl
@[simp] theorem State.put_pstate (s : State) (r : SysReg) (v : Word) :
    (s.put r v).pstate = s.pstate := rfl
@[simp] theorem State.put_vec (s : State) (r : SysReg) (v : Word) : (s.put r v).vec = s.vec := rfl
@[simp] theorem State.put_unsynced (s : State) (r : SysReg) (v : Word) :
    (s.put r v).unsynced = s.unsynced := rfl
@[simp] theorem State.put_mem (s : State) (r : SysReg) (v : Word) : (s.put r v).mem = s.mem := rfl
@[simp] theorem State.put_tags (s : State) (r : SysReg) (v : Word) :
    (s.put r v).tags = s.tags := rfl
@[simp] theorem State.put_poison (s : State) (r : SysReg) (v : Word) :
    (s.put r v).poison = s.poison := rfl
@[simp] theorem State.put_monitor (s : State) (r : SysReg) (v : Word) :
    (s.put r v).monitor = s.monitor := rfl
@[simp] theorem State.put_eventReg (s : State) (r : SysReg) (v : Word) :
    (s.put r v).eventReg = s.eventReg := rfl
@[simp] theorem State.put_sleep (s : State) (r : SysReg) (v : Word) :
    (s.put r v).sleep = s.sleep := rfl
@[simp] theorem State.put_power (s : State) (r : SysReg) (v : Word) :
    (s.put r v).power = s.power := rfl
@[simp] theorem State.put_tlb (s : State) (r : SysReg) (v : Word) : (s.put r v).tlb = s.tlb := rfl
@[simp] theorem State.put_cache (s : State) (r : SysReg) (v : Word) :
    (s.put r v).cache = s.cache := rfl
@[simp] theorem State.put_mwb (s : State) (r : SysReg) (v : Word) : (s.put r v).mwb = s.mwb := rfl
@[simp] theorem State.put_returnStack (s : State) (r : SysReg) (v : Word) :
    (s.put r v).returnStack = s.returnStack := rfl
@[simp] theorem State.put_predictor (s : State) (r : SysReg) (v : Word) :
    (s.put r v).predictor = s.predictor := rfl
@[simp] theorem State.put_irq (s : State) (r : SysReg) (v : Word) : (s.put r v).irq = s.irq := rfl
@[simp] theorem State.put_gic (s : State) (r : SysReg) (v : Word) : (s.put r v).gic = s.gic := rfl
@[simp] theorem State.put_gicDisabled (s : State) (r : SysReg) (v : Word) :
    (s.put r v).gicDisabled = s.gicDisabled := rfl
@[simp] theorem State.put_ram (s : State) (r : SysReg) (v : Word) : (s.put r v).ram = s.ram := rfl
@[simp] theorem State.put_ras (s : State) (r : SysReg) (v : Word) : (s.put r v).ras = s.ras := rfl
@[simp] theorem State.put_sysCount (s : State) (r : SysReg) (v : Word) :
    (s.put r v).sysCount = s.sysCount := rfl
@[simp] theorem State.put_spe (s : State) (r : SysReg) (v : Word) : (s.put r v).spe = s.spe := rfl
@[simp] theorem State.put_debug (s : State) (r : SysReg) (v : Word) :
    (s.put r v).dbg = s.dbg := rfl
@[simp] theorem State.put_osLock (s : State) (r : SysReg) (v : Word) :
    (s.put r v).osLock = s.osLock := rfl
@[simp] theorem State.put_trace (s : State) (r : SysReg) (v : Word) :
    (s.put r v).trace = s.trace := rfl
@[simp] theorem State.put_throttle (s : State) (r : SysReg) (v : Word) :
    (s.put r v).throttle = s.throttle := rfl
@[simp] theorem State.put_bus (s : State) (r : SysReg) (v : Word) : (s.put r v).bus = s.bus := rfl
@[simp] theorem State.put_events (s : State) (r : SysReg) (v : Word) :
    (s.put r v).events = s.events := rfl
@[simp] theorem State.put_inbox (s : State) (r : SysReg) (v : Word) :
    (s.put r v).inbox = s.inbox := rfl
@[simp] theorem State.put_exclBudget (s : State) (r : SysReg) (v : Word) :
    (s.put r v).exclBudget = s.exclBudget := rfl
@[simp] theorem State.put_draws (s : State) (r : SysReg) (v : Word) :
    (s.put r v).draws = s.draws := rfl

/-! `pushReturn` -/

@[simp] theorem State.pushReturn_cfg (s : State) (a : Word) : (s.pushReturn a).cfg = s.cfg := rfl
@[simp] theorem State.pushReturn_x (s : State) (a : Word) : (s.pushReturn a).x = s.x := rfl
@[simp] theorem State.pushReturn_sp (s : State) (a : Word) : (s.pushReturn a).sp = s.sp := rfl
@[simp] theorem State.pushReturn_pc (s : State) (a : Word) : (s.pushReturn a).pc = s.pc := rfl
@[simp] theorem State.pushReturn_pstate (s : State) (a : Word) :
    (s.pushReturn a).pstate = s.pstate := rfl
@[simp] theorem State.pushReturn_vec (s : State) (a : Word) : (s.pushReturn a).vec = s.vec := rfl
@[simp] theorem State.pushReturn_sys (s : State) (a : Word) : (s.pushReturn a).sys = s.sys := rfl
@[simp] theorem State.pushReturn_unsynced (s : State) (a : Word) :
    (s.pushReturn a).unsynced = s.unsynced := rfl
@[simp] theorem State.pushReturn_mem (s : State) (a : Word) : (s.pushReturn a).mem = s.mem := rfl
@[simp] theorem State.pushReturn_tags (s : State) (a : Word) : (s.pushReturn a).tags = s.tags := rfl
@[simp] theorem State.pushReturn_poison (s : State) (a : Word) :
    (s.pushReturn a).poison = s.poison := rfl
@[simp] theorem State.pushReturn_monitor (s : State) (a : Word) :
    (s.pushReturn a).monitor = s.monitor := rfl
@[simp] theorem State.pushReturn_eventReg (s : State) (a : Word) :
    (s.pushReturn a).eventReg = s.eventReg := rfl
@[simp] theorem State.pushReturn_sleep (s : State) (a : Word) :
    (s.pushReturn a).sleep = s.sleep := rfl
@[simp] theorem State.pushReturn_power (s : State) (a : Word) :
    (s.pushReturn a).power = s.power := rfl
@[simp] theorem State.pushReturn_tlb (s : State) (a : Word) : (s.pushReturn a).tlb = s.tlb := rfl
@[simp] theorem State.pushReturn_cache (s : State) (a : Word) :
    (s.pushReturn a).cache = s.cache := rfl
@[simp] theorem State.pushReturn_mwb (s : State) (a : Word) : (s.pushReturn a).mwb = s.mwb := rfl
@[simp] theorem State.pushReturn_predictor (s : State) (a : Word) :
    (s.pushReturn a).predictor = s.predictor := rfl
@[simp] theorem State.pushReturn_irq (s : State) (a : Word) : (s.pushReturn a).irq = s.irq := rfl
@[simp] theorem State.pushReturn_gic (s : State) (a : Word) : (s.pushReturn a).gic = s.gic := rfl
@[simp] theorem State.pushReturn_gicDisabled (s : State) (a : Word) :
    (s.pushReturn a).gicDisabled = s.gicDisabled := rfl
@[simp] theorem State.pushReturn_ram (s : State) (a : Word) : (s.pushReturn a).ram = s.ram := rfl
@[simp] theorem State.pushReturn_ras (s : State) (a : Word) : (s.pushReturn a).ras = s.ras := rfl
@[simp] theorem State.pushReturn_sysCount (s : State) (a : Word) :
    (s.pushReturn a).sysCount = s.sysCount := rfl
@[simp] theorem State.pushReturn_spe (s : State) (a : Word) : (s.pushReturn a).spe = s.spe := rfl
@[simp] theorem State.pushReturn_debug (s : State) (a : Word) :
    (s.pushReturn a).dbg = s.dbg := rfl
@[simp] theorem State.pushReturn_osLock (s : State) (a : Word) :
    (s.pushReturn a).osLock = s.osLock := rfl
@[simp] theorem State.pushReturn_trace (s : State) (a : Word) :
    (s.pushReturn a).trace = s.trace := rfl
@[simp] theorem State.pushReturn_throttle (s : State) (a : Word) :
    (s.pushReturn a).throttle = s.throttle := rfl
@[simp] theorem State.pushReturn_bus (s : State) (a : Word) : (s.pushReturn a).bus = s.bus := rfl
@[simp] theorem State.pushReturn_events (s : State) (a : Word) :
    (s.pushReturn a).events = s.events := rfl
@[simp] theorem State.pushReturn_inbox (s : State) (a : Word) :
    (s.pushReturn a).inbox = s.inbox := rfl
@[simp] theorem State.pushReturn_exclBudget (s : State) (a : Word) :
    (s.pushReturn a).exclBudget = s.exclBudget := rfl
@[simp] theorem State.pushReturn_draws (s : State) (a : Word) :
    (s.pushReturn a).draws = s.draws := rfl
@[simp] theorem State.pushReturn_get (s : State) (a : Word) (q : SysReg) :
    (s.pushReturn a).get q = s.get q := by simp [State.get]

/-! `popReturn` -/

@[simp] theorem State.popReturn_cfg (s : State) : (s.popReturn).cfg = s.cfg := rfl
@[simp] theorem State.popReturn_x (s : State) : (s.popReturn).x = s.x := rfl
@[simp] theorem State.popReturn_sp (s : State) : (s.popReturn).sp = s.sp := rfl
@[simp] theorem State.popReturn_pc (s : State) : (s.popReturn).pc = s.pc := rfl
@[simp] theorem State.popReturn_pstate (s : State) : (s.popReturn).pstate = s.pstate := rfl
@[simp] theorem State.popReturn_vec (s : State) : (s.popReturn).vec = s.vec := rfl
@[simp] theorem State.popReturn_sys (s : State) : (s.popReturn).sys = s.sys := rfl
@[simp] theorem State.popReturn_unsynced (s : State) : (s.popReturn).unsynced = s.unsynced := rfl
@[simp] theorem State.popReturn_mem (s : State) : (s.popReturn).mem = s.mem := rfl
@[simp] theorem State.popReturn_tags (s : State) : (s.popReturn).tags = s.tags := rfl
@[simp] theorem State.popReturn_poison (s : State) : (s.popReturn).poison = s.poison := rfl
@[simp] theorem State.popReturn_monitor (s : State) : (s.popReturn).monitor = s.monitor := rfl
@[simp] theorem State.popReturn_eventReg (s : State) : (s.popReturn).eventReg = s.eventReg := rfl
@[simp] theorem State.popReturn_sleep (s : State) : (s.popReturn).sleep = s.sleep := rfl
@[simp] theorem State.popReturn_power (s : State) : (s.popReturn).power = s.power := rfl
@[simp] theorem State.popReturn_tlb (s : State) : (s.popReturn).tlb = s.tlb := rfl
@[simp] theorem State.popReturn_cache (s : State) : (s.popReturn).cache = s.cache := rfl
@[simp] theorem State.popReturn_mwb (s : State) : (s.popReturn).mwb = s.mwb := rfl
@[simp] theorem State.popReturn_predictor (s : State) :
    (s.popReturn).predictor = s.predictor := rfl
@[simp] theorem State.popReturn_irq (s : State) : (s.popReturn).irq = s.irq := rfl
@[simp] theorem State.popReturn_gic (s : State) : (s.popReturn).gic = s.gic := rfl
@[simp] theorem State.popReturn_gicDisabled (s : State) :
    (s.popReturn).gicDisabled = s.gicDisabled := rfl
@[simp] theorem State.popReturn_ram (s : State) : (s.popReturn).ram = s.ram := rfl
@[simp] theorem State.popReturn_ras (s : State) : (s.popReturn).ras = s.ras := rfl
@[simp] theorem State.popReturn_sysCount (s : State) : (s.popReturn).sysCount = s.sysCount := rfl
@[simp] theorem State.popReturn_spe (s : State) : (s.popReturn).spe = s.spe := rfl
@[simp] theorem State.popReturn_debug (s : State) : (s.popReturn).dbg = s.dbg := rfl
@[simp] theorem State.popReturn_osLock (s : State) : (s.popReturn).osLock = s.osLock := rfl
@[simp] theorem State.popReturn_trace (s : State) : (s.popReturn).trace = s.trace := rfl
@[simp] theorem State.popReturn_throttle (s : State) : (s.popReturn).throttle = s.throttle := rfl
@[simp] theorem State.popReturn_bus (s : State) : (s.popReturn).bus = s.bus := rfl
@[simp] theorem State.popReturn_events (s : State) : (s.popReturn).events = s.events := rfl
@[simp] theorem State.popReturn_inbox (s : State) : (s.popReturn).inbox = s.inbox := rfl
@[simp] theorem State.popReturn_exclBudget (s : State) :
    (s.popReturn).exclBudget = s.exclBudget := rfl
@[simp] theorem State.popReturn_draws (s : State) : (s.popReturn).draws = s.draws := rfl
@[simp] theorem State.popReturn_get (s : State) (q : SysReg) :
    (s.popReturn).get q = s.get q := by simp [State.get]

/-! `contextSync` -/

@[simp] theorem State.contextSync_cfg (s : State) : (s.contextSync).cfg = s.cfg := rfl
@[simp] theorem State.contextSync_x (s : State) : (s.contextSync).x = s.x := rfl
@[simp] theorem State.contextSync_sp (s : State) : (s.contextSync).sp = s.sp := rfl
@[simp] theorem State.contextSync_pc (s : State) : (s.contextSync).pc = s.pc := rfl
@[simp] theorem State.contextSync_pstate (s : State) : (s.contextSync).pstate = s.pstate := rfl
@[simp] theorem State.contextSync_vec (s : State) : (s.contextSync).vec = s.vec := rfl
@[simp] theorem State.contextSync_sys (s : State) : (s.contextSync).sys = s.sys := rfl
@[simp] theorem State.contextSync_mem (s : State) : (s.contextSync).mem = s.mem := rfl
@[simp] theorem State.contextSync_tags (s : State) : (s.contextSync).tags = s.tags := rfl
@[simp] theorem State.contextSync_poison (s : State) : (s.contextSync).poison = s.poison := rfl
@[simp] theorem State.contextSync_monitor (s : State) : (s.contextSync).monitor = s.monitor := rfl
@[simp] theorem State.contextSync_eventReg (s : State) :
    (s.contextSync).eventReg = s.eventReg := rfl
@[simp] theorem State.contextSync_sleep (s : State) : (s.contextSync).sleep = s.sleep := rfl
@[simp] theorem State.contextSync_power (s : State) : (s.contextSync).power = s.power := rfl
@[simp] theorem State.contextSync_tlb (s : State) : (s.contextSync).tlb = s.tlb := rfl
@[simp] theorem State.contextSync_mwb (s : State) : (s.contextSync).mwb = s.mwb := rfl
@[simp] theorem State.contextSync_returnStack (s : State) :
    (s.contextSync).returnStack = s.returnStack := rfl
@[simp] theorem State.contextSync_predictor (s : State) :
    (s.contextSync).predictor = s.predictor := rfl
@[simp] theorem State.contextSync_irq (s : State) : (s.contextSync).irq = s.irq := rfl
@[simp] theorem State.contextSync_gic (s : State) :
    s.contextSync.gic = { s.gic with activeOld := [] } := rfl
@[simp] theorem State.contextSync_gicDisabled (s : State) :
    (s.contextSync).gicDisabled = s.gicDisabled := rfl
@[simp] theorem State.contextSync_ras (s : State) : (s.contextSync).ras = s.ras := rfl
@[simp] theorem State.contextSync_sysCount (s : State) :
    (s.contextSync).sysCount = s.sysCount := rfl
@[simp] theorem State.contextSync_spe (s : State) : (s.contextSync).spe = s.spe := rfl
@[simp] theorem State.contextSync_debug (s : State) : (s.contextSync).dbg = s.dbg := rfl
@[simp] theorem State.contextSync_osLock (s : State) : (s.contextSync).osLock = s.osLock := rfl
@[simp] theorem State.contextSync_trace (s : State) : (s.contextSync).trace = s.trace := rfl
@[simp] theorem State.contextSync_throttle (s : State) :
    (s.contextSync).throttle = s.throttle := rfl
@[simp] theorem State.contextSync_bus (s : State) : (s.contextSync).bus = s.bus := rfl
@[simp] theorem State.contextSync_events (s : State) : (s.contextSync).events = s.events := rfl
@[simp] theorem State.contextSync_inbox (s : State) : (s.contextSync).inbox = s.inbox := rfl
@[simp] theorem State.contextSync_exclBudget (s : State) :
    (s.contextSync).exclBudget = s.exclBudget := rfl
@[simp] theorem State.contextSync_draws (s : State) : (s.contextSync).draws = s.draws := rfl
@[simp] theorem State.contextSync_get (s : State) (q : SysReg) :
    (s.contextSync).get q = s.get q := by simp [State.get]

/-! `openMonitor` -/

@[simp] theorem State.openMonitor_cfg (s : State) : (s.openMonitor).cfg = s.cfg := rfl
@[simp] theorem State.openMonitor_x (s : State) : (s.openMonitor).x = s.x := rfl
@[simp] theorem State.openMonitor_sp (s : State) : (s.openMonitor).sp = s.sp := rfl
@[simp] theorem State.openMonitor_pc (s : State) : (s.openMonitor).pc = s.pc := rfl
@[simp] theorem State.openMonitor_pstate (s : State) : (s.openMonitor).pstate = s.pstate := rfl
@[simp] theorem State.openMonitor_vec (s : State) : (s.openMonitor).vec = s.vec := rfl
@[simp] theorem State.openMonitor_sys (s : State) : (s.openMonitor).sys = s.sys := rfl
@[simp] theorem State.openMonitor_unsynced (s : State) :
    (s.openMonitor).unsynced = s.unsynced := rfl
@[simp] theorem State.openMonitor_mem (s : State) : (s.openMonitor).mem = s.mem := rfl
@[simp] theorem State.openMonitor_tags (s : State) : (s.openMonitor).tags = s.tags := rfl
@[simp] theorem State.openMonitor_poison (s : State) : (s.openMonitor).poison = s.poison := rfl
@[simp] theorem State.openMonitor_eventReg (s : State) :
    (s.openMonitor).eventReg = s.eventReg := rfl
@[simp] theorem State.openMonitor_sleep (s : State) : (s.openMonitor).sleep = s.sleep := rfl
@[simp] theorem State.openMonitor_power (s : State) : (s.openMonitor).power = s.power := rfl
@[simp] theorem State.openMonitor_tlb (s : State) : (s.openMonitor).tlb = s.tlb := rfl
@[simp] theorem State.openMonitor_cache (s : State) : (s.openMonitor).cache = s.cache := rfl
@[simp] theorem State.openMonitor_mwb (s : State) : (s.openMonitor).mwb = s.mwb := rfl
@[simp] theorem State.openMonitor_returnStack (s : State) :
    (s.openMonitor).returnStack = s.returnStack := rfl
@[simp] theorem State.openMonitor_predictor (s : State) :
    (s.openMonitor).predictor = s.predictor := rfl
@[simp] theorem State.openMonitor_irq (s : State) : (s.openMonitor).irq = s.irq := rfl
@[simp] theorem State.openMonitor_gic (s : State) : (s.openMonitor).gic = s.gic := rfl
@[simp] theorem State.openMonitor_gicDisabled (s : State) :
    (s.openMonitor).gicDisabled = s.gicDisabled := rfl
@[simp] theorem State.openMonitor_ram (s : State) : (s.openMonitor).ram = s.ram := rfl
@[simp] theorem State.openMonitor_ras (s : State) : (s.openMonitor).ras = s.ras := rfl
@[simp] theorem State.openMonitor_sysCount (s : State) :
    (s.openMonitor).sysCount = s.sysCount := rfl
@[simp] theorem State.openMonitor_spe (s : State) : (s.openMonitor).spe = s.spe := rfl
@[simp] theorem State.openMonitor_debug (s : State) : (s.openMonitor).dbg = s.dbg := rfl
@[simp] theorem State.openMonitor_osLock (s : State) : (s.openMonitor).osLock = s.osLock := rfl
@[simp] theorem State.openMonitor_trace (s : State) : (s.openMonitor).trace = s.trace := rfl
@[simp] theorem State.openMonitor_throttle (s : State) :
    (s.openMonitor).throttle = s.throttle := rfl
@[simp] theorem State.openMonitor_bus (s : State) : (s.openMonitor).bus = s.bus := rfl
@[simp] theorem State.openMonitor_events (s : State) : (s.openMonitor).events = s.events := rfl
@[simp] theorem State.openMonitor_inbox (s : State) : (s.openMonitor).inbox = s.inbox := rfl
@[simp] theorem State.openMonitor_exclBudget (s : State) :
    (s.openMonitor).exclBudget = s.exclBudget := rfl
@[simp] theorem State.openMonitor_draws (s : State) : (s.openMonitor).draws = s.draws := rfl
@[simp] theorem State.openMonitor_get (s : State) (q : SysReg) :
    (s.openMonitor).get q = s.get q := by simp [State.get]

/-! `record` -/

@[simp] theorem State.record_cfg (s : State) (e : MemEvent) : (s.record e).cfg = s.cfg := rfl
@[simp] theorem State.record_x (s : State) (e : MemEvent) : (s.record e).x = s.x := rfl
@[simp] theorem State.record_sp (s : State) (e : MemEvent) : (s.record e).sp = s.sp := rfl
@[simp] theorem State.record_pc (s : State) (e : MemEvent) : (s.record e).pc = s.pc := rfl
@[simp] theorem State.record_pstate (s : State) (e : MemEvent) :
    (s.record e).pstate = s.pstate := rfl
@[simp] theorem State.record_vec (s : State) (e : MemEvent) : (s.record e).vec = s.vec := rfl
@[simp] theorem State.record_sys (s : State) (e : MemEvent) : (s.record e).sys = s.sys := rfl
@[simp] theorem State.record_unsynced (s : State) (e : MemEvent) :
    (s.record e).unsynced = s.unsynced := rfl
@[simp] theorem State.record_mem (s : State) (e : MemEvent) : (s.record e).mem = s.mem := rfl
@[simp] theorem State.record_tags (s : State) (e : MemEvent) : (s.record e).tags = s.tags := rfl
@[simp] theorem State.record_poison (s : State) (e : MemEvent) :
    (s.record e).poison = s.poison := rfl
@[simp] theorem State.record_monitor (s : State) (e : MemEvent) :
    (s.record e).monitor = s.monitor := rfl
@[simp] theorem State.record_eventReg (s : State) (e : MemEvent) :
    (s.record e).eventReg = s.eventReg := rfl
@[simp] theorem State.record_sleep (s : State) (e : MemEvent) : (s.record e).sleep = s.sleep := rfl
@[simp] theorem State.record_power (s : State) (e : MemEvent) : (s.record e).power = s.power := rfl
@[simp] theorem State.record_tlb (s : State) (e : MemEvent) : (s.record e).tlb = s.tlb := rfl
@[simp] theorem State.record_cache (s : State) (e : MemEvent) : (s.record e).cache = s.cache := rfl
@[simp] theorem State.record_mwb (s : State) (e : MemEvent) : (s.record e).mwb = s.mwb := rfl
@[simp] theorem State.record_returnStack (s : State) (e : MemEvent) :
    (s.record e).returnStack = s.returnStack := rfl
@[simp] theorem State.record_predictor (s : State) (e : MemEvent) :
    (s.record e).predictor = s.predictor := rfl
@[simp] theorem State.record_irq (s : State) (e : MemEvent) : (s.record e).irq = s.irq := rfl
@[simp] theorem State.record_gic (s : State) (e : MemEvent) : (s.record e).gic = s.gic := rfl
@[simp] theorem State.record_gicDisabled (s : State) (e : MemEvent) :
    (s.record e).gicDisabled = s.gicDisabled := rfl
@[simp] theorem State.record_ram (s : State) (e : MemEvent) : (s.record e).ram = s.ram := rfl
@[simp] theorem State.record_ras (s : State) (e : MemEvent) : (s.record e).ras = s.ras := rfl
@[simp] theorem State.record_sysCount (s : State) (e : MemEvent) :
    (s.record e).sysCount = s.sysCount := rfl
@[simp] theorem State.record_spe (s : State) (e : MemEvent) : (s.record e).spe = s.spe := rfl
@[simp] theorem State.record_debug (s : State) (e : MemEvent) : (s.record e).dbg = s.dbg := rfl
@[simp] theorem State.record_osLock (s : State) (e : MemEvent) :
    (s.record e).osLock = s.osLock := rfl
@[simp] theorem State.record_trace (s : State) (e : MemEvent) : (s.record e).trace = s.trace := rfl
@[simp] theorem State.record_throttle (s : State) (e : MemEvent) :
    (s.record e).throttle = s.throttle := rfl
@[simp] theorem State.record_bus (s : State) (e : MemEvent) : (s.record e).bus = s.bus := rfl
@[simp] theorem State.record_inbox (s : State) (e : MemEvent) : (s.record e).inbox = s.inbox := rfl
@[simp] theorem State.record_exclBudget (s : State) (e : MemEvent) :
    (s.record e).exclBudget = s.exclBudget := rfl
@[simp] theorem State.record_draws (s : State) (e : MemEvent) : (s.record e).draws = s.draws := rfl
@[simp] theorem State.record_get (s : State) (e : MemEvent) (q : SysReg) :
    (s.record e).get q = s.get q := by simp [State.get]

/-! `showPbha` -/

@[simp] theorem State.showPbha_cfg (s : State) (va : Word) (m : Mapped) :
    (s.showPbha va m).cfg = s.cfg := rfl
@[simp] theorem State.showPbha_x (s : State) (va : Word) (m : Mapped) :
    (s.showPbha va m).x = s.x := rfl
@[simp] theorem State.showPbha_sp (s : State) (va : Word) (m : Mapped) :
    (s.showPbha va m).sp = s.sp := rfl
@[simp] theorem State.showPbha_pc (s : State) (va : Word) (m : Mapped) :
    (s.showPbha va m).pc = s.pc := rfl
@[simp] theorem State.showPbha_pstate (s : State) (va : Word) (m : Mapped) :
    (s.showPbha va m).pstate = s.pstate := rfl
@[simp] theorem State.showPbha_vec (s : State) (va : Word) (m : Mapped) :
    (s.showPbha va m).vec = s.vec := rfl
@[simp] theorem State.showPbha_sys (s : State) (va : Word) (m : Mapped) :
    (s.showPbha va m).sys = s.sys := rfl
@[simp] theorem State.showPbha_unsynced (s : State) (va : Word) (m : Mapped) :
    (s.showPbha va m).unsynced = s.unsynced := rfl
@[simp] theorem State.showPbha_mem (s : State) (va : Word) (m : Mapped) :
    (s.showPbha va m).mem = s.mem := rfl
@[simp] theorem State.showPbha_tags (s : State) (va : Word) (m : Mapped) :
    (s.showPbha va m).tags = s.tags := rfl
@[simp] theorem State.showPbha_poison (s : State) (va : Word) (m : Mapped) :
    (s.showPbha va m).poison = s.poison := rfl
@[simp] theorem State.showPbha_monitor (s : State) (va : Word) (m : Mapped) :
    (s.showPbha va m).monitor = s.monitor := rfl
@[simp] theorem State.showPbha_eventReg (s : State) (va : Word) (m : Mapped) :
    (s.showPbha va m).eventReg = s.eventReg := rfl
@[simp] theorem State.showPbha_sleep (s : State) (va : Word) (m : Mapped) :
    (s.showPbha va m).sleep = s.sleep := rfl
@[simp] theorem State.showPbha_power (s : State) (va : Word) (m : Mapped) :
    (s.showPbha va m).power = s.power := rfl
@[simp] theorem State.showPbha_tlb (s : State) (va : Word) (m : Mapped) :
    (s.showPbha va m).tlb = s.tlb := rfl
@[simp] theorem State.showPbha_cache (s : State) (va : Word) (m : Mapped) :
    (s.showPbha va m).cache = s.cache := rfl
@[simp] theorem State.showPbha_mwb (s : State) (va : Word) (m : Mapped) :
    (s.showPbha va m).mwb = s.mwb := rfl
@[simp] theorem State.showPbha_returnStack (s : State) (va : Word) (m : Mapped) :
    (s.showPbha va m).returnStack = s.returnStack := rfl
@[simp] theorem State.showPbha_predictor (s : State) (va : Word) (m : Mapped) :
    (s.showPbha va m).predictor = s.predictor := rfl
@[simp] theorem State.showPbha_irq (s : State) (va : Word) (m : Mapped) :
    (s.showPbha va m).irq = s.irq := rfl
@[simp] theorem State.showPbha_gic (s : State) (va : Word) (m : Mapped) :
    (s.showPbha va m).gic = s.gic := rfl
@[simp] theorem State.showPbha_gicDisabled (s : State) (va : Word) (m : Mapped) :
    (s.showPbha va m).gicDisabled = s.gicDisabled := rfl
@[simp] theorem State.showPbha_ram (s : State) (va : Word) (m : Mapped) :
    (s.showPbha va m).ram = s.ram := rfl
@[simp] theorem State.showPbha_ras (s : State) (va : Word) (m : Mapped) :
    (s.showPbha va m).ras = s.ras := rfl
@[simp] theorem State.showPbha_sysCount (s : State) (va : Word) (m : Mapped) :
    (s.showPbha va m).sysCount = s.sysCount := rfl
@[simp] theorem State.showPbha_spe (s : State) (va : Word) (m : Mapped) :
    (s.showPbha va m).spe = s.spe := rfl
@[simp] theorem State.showPbha_debug (s : State) (va : Word) (m : Mapped) :
    (s.showPbha va m).dbg = s.dbg := rfl
@[simp] theorem State.showPbha_osLock (s : State) (va : Word) (m : Mapped) :
    (s.showPbha va m).osLock = s.osLock := rfl
@[simp] theorem State.showPbha_trace (s : State) (va : Word) (m : Mapped) :
    (s.showPbha va m).trace = s.trace := rfl
@[simp] theorem State.showPbha_throttle (s : State) (va : Word) (m : Mapped) :
    (s.showPbha va m).throttle = s.throttle := rfl
@[simp] theorem State.showPbha_events (s : State) (va : Word) (m : Mapped) :
    (s.showPbha va m).events = s.events := rfl
@[simp] theorem State.showPbha_inbox (s : State) (va : Word) (m : Mapped) :
    (s.showPbha va m).inbox = s.inbox := rfl
@[simp] theorem State.showPbha_exclBudget (s : State) (va : Word) (m : Mapped) :
    (s.showPbha va m).exclBudget = s.exclBudget := rfl
@[simp] theorem State.showPbha_draws (s : State) (va : Word) (m : Mapped) :
    (s.showPbha va m).draws = s.draws := rfl
@[simp] theorem State.showPbha_get (s : State) (va : Word) (m : Mapped) (q : SysReg) :
    (s.showPbha va m).get q = s.get q := by simp [State.get]

/-! `writeMem` -/

@[simp] theorem State.writeMem_cfg (s : State) (k : Nat) (bs : List Byte) :
    (s.writeMem k bs).cfg = s.cfg := rfl
@[simp] theorem State.writeMem_x (s : State) (k : Nat) (bs : List Byte) :
    (s.writeMem k bs).x = s.x := rfl
@[simp] theorem State.writeMem_sp (s : State) (k : Nat) (bs : List Byte) :
    (s.writeMem k bs).sp = s.sp := rfl
@[simp] theorem State.writeMem_pc (s : State) (k : Nat) (bs : List Byte) :
    (s.writeMem k bs).pc = s.pc := rfl
@[simp] theorem State.writeMem_pstate (s : State) (k : Nat) (bs : List Byte) :
    (s.writeMem k bs).pstate = s.pstate := rfl
@[simp] theorem State.writeMem_vec (s : State) (k : Nat) (bs : List Byte) :
    (s.writeMem k bs).vec = s.vec := rfl
@[simp] theorem State.writeMem_sys (s : State) (k : Nat) (bs : List Byte) :
    (s.writeMem k bs).sys = s.sys := rfl
@[simp] theorem State.writeMem_unsynced (s : State) (k : Nat) (bs : List Byte) :
    (s.writeMem k bs).unsynced = s.unsynced := rfl
@[simp] theorem State.writeMem_tags (s : State) (k : Nat) (bs : List Byte) :
    (s.writeMem k bs).tags = s.tags := rfl
@[simp] theorem State.writeMem_poison (s : State) (k : Nat) (bs : List Byte) :
    (s.writeMem k bs).poison = s.poison := rfl
@[simp] theorem State.writeMem_monitor (s : State) (k : Nat) (bs : List Byte) :
    (s.writeMem k bs).monitor = s.monitor := rfl
@[simp] theorem State.writeMem_eventReg (s : State) (k : Nat) (bs : List Byte) :
    (s.writeMem k bs).eventReg = s.eventReg := rfl
@[simp] theorem State.writeMem_sleep (s : State) (k : Nat) (bs : List Byte) :
    (s.writeMem k bs).sleep = s.sleep := rfl
@[simp] theorem State.writeMem_power (s : State) (k : Nat) (bs : List Byte) :
    (s.writeMem k bs).power = s.power := rfl
@[simp] theorem State.writeMem_tlb (s : State) (k : Nat) (bs : List Byte) :
    (s.writeMem k bs).tlb = s.tlb := rfl
@[simp] theorem State.writeMem_mwb (s : State) (k : Nat) (bs : List Byte) :
    (s.writeMem k bs).mwb = s.mwb := rfl
@[simp] theorem State.writeMem_returnStack (s : State) (k : Nat) (bs : List Byte) :
    (s.writeMem k bs).returnStack = s.returnStack := rfl
@[simp] theorem State.writeMem_predictor (s : State) (k : Nat) (bs : List Byte) :
    (s.writeMem k bs).predictor = s.predictor := rfl
@[simp] theorem State.writeMem_irq (s : State) (k : Nat) (bs : List Byte) :
    (s.writeMem k bs).irq = s.irq := rfl
@[simp] theorem State.writeMem_gic (s : State) (k : Nat) (bs : List Byte) :
    (s.writeMem k bs).gic = s.gic := rfl
@[simp] theorem State.writeMem_gicDisabled (s : State) (k : Nat) (bs : List Byte) :
    (s.writeMem k bs).gicDisabled = s.gicDisabled := rfl
@[simp] theorem State.writeMem_ram (s : State) (k : Nat) (bs : List Byte) :
    (s.writeMem k bs).ram = s.ram := rfl
@[simp] theorem State.writeMem_ras (s : State) (k : Nat) (bs : List Byte) :
    (s.writeMem k bs).ras = s.ras := rfl
@[simp] theorem State.writeMem_sysCount (s : State) (k : Nat) (bs : List Byte) :
    (s.writeMem k bs).sysCount = s.sysCount := rfl
@[simp] theorem State.writeMem_spe (s : State) (k : Nat) (bs : List Byte) :
    (s.writeMem k bs).spe = s.spe := rfl
@[simp] theorem State.writeMem_debug (s : State) (k : Nat) (bs : List Byte) :
    (s.writeMem k bs).dbg = s.dbg := rfl
@[simp] theorem State.writeMem_osLock (s : State) (k : Nat) (bs : List Byte) :
    (s.writeMem k bs).osLock = s.osLock := rfl
@[simp] theorem State.writeMem_trace (s : State) (k : Nat) (bs : List Byte) :
    (s.writeMem k bs).trace = s.trace := rfl
@[simp] theorem State.writeMem_throttle (s : State) (k : Nat) (bs : List Byte) :
    (s.writeMem k bs).throttle = s.throttle := rfl
@[simp] theorem State.writeMem_bus (s : State) (k : Nat) (bs : List Byte) :
    (s.writeMem k bs).bus = s.bus := rfl
@[simp] theorem State.writeMem_events (s : State) (k : Nat) (bs : List Byte) :
    (s.writeMem k bs).events = s.events := rfl
@[simp] theorem State.writeMem_inbox (s : State) (k : Nat) (bs : List Byte) :
    (s.writeMem k bs).inbox = s.inbox := rfl
@[simp] theorem State.writeMem_exclBudget (s : State) (k : Nat) (bs : List Byte) :
    (s.writeMem k bs).exclBudget = s.exclBudget := rfl
@[simp] theorem State.writeMem_draws (s : State) (k : Nat) (bs : List Byte) :
    (s.writeMem k bs).draws = s.draws := rfl
@[simp] theorem State.writeMem_get (s : State) (k : Nat) (bs : List Byte) (q : SysReg) :
    (s.writeMem k bs).get q = s.get q := by simp [State.get]

/-! `pendSError` -/

@[simp] theorem State.pendSError_cfg (s : State) : (s.pendSError).cfg = s.cfg := rfl
@[simp] theorem State.pendSError_x (s : State) : (s.pendSError).x = s.x := rfl
@[simp] theorem State.pendSError_sp (s : State) : (s.pendSError).sp = s.sp := rfl
@[simp] theorem State.pendSError_pc (s : State) : (s.pendSError).pc = s.pc := rfl
@[simp] theorem State.pendSError_pstate (s : State) : (s.pendSError).pstate = s.pstate := rfl
@[simp] theorem State.pendSError_vec (s : State) : (s.pendSError).vec = s.vec := rfl
@[simp] theorem State.pendSError_sys (s : State) : (s.pendSError).sys = s.sys := rfl
@[simp] theorem State.pendSError_unsynced (s : State) : (s.pendSError).unsynced = s.unsynced := rfl
@[simp] theorem State.pendSError_mem (s : State) : (s.pendSError).mem = s.mem := rfl
@[simp] theorem State.pendSError_tags (s : State) : (s.pendSError).tags = s.tags := rfl
@[simp] theorem State.pendSError_poison (s : State) : (s.pendSError).poison = s.poison := rfl
@[simp] theorem State.pendSError_monitor (s : State) : (s.pendSError).monitor = s.monitor := rfl
@[simp] theorem State.pendSError_eventReg (s : State) : (s.pendSError).eventReg = s.eventReg := rfl
@[simp] theorem State.pendSError_sleep (s : State) : (s.pendSError).sleep = s.sleep := rfl
@[simp] theorem State.pendSError_power (s : State) : (s.pendSError).power = s.power := rfl
@[simp] theorem State.pendSError_tlb (s : State) : (s.pendSError).tlb = s.tlb := rfl
@[simp] theorem State.pendSError_cache (s : State) : (s.pendSError).cache = s.cache := rfl
@[simp] theorem State.pendSError_mwb (s : State) : (s.pendSError).mwb = s.mwb := rfl
@[simp] theorem State.pendSError_returnStack (s : State) :
    (s.pendSError).returnStack = s.returnStack := rfl
@[simp] theorem State.pendSError_predictor (s : State) :
    (s.pendSError).predictor = s.predictor := rfl
@[simp] theorem State.pendSError_gic (s : State) : (s.pendSError).gic = s.gic := rfl
@[simp] theorem State.pendSError_gicDisabled (s : State) :
    (s.pendSError).gicDisabled = s.gicDisabled := rfl
@[simp] theorem State.pendSError_ram (s : State) : (s.pendSError).ram = s.ram := rfl
@[simp] theorem State.pendSError_ras (s : State) : (s.pendSError).ras = s.ras := rfl
@[simp] theorem State.pendSError_sysCount (s : State) : (s.pendSError).sysCount = s.sysCount := rfl
@[simp] theorem State.pendSError_spe (s : State) : (s.pendSError).spe = s.spe := rfl
@[simp] theorem State.pendSError_debug (s : State) : (s.pendSError).dbg = s.dbg := rfl
@[simp] theorem State.pendSError_osLock (s : State) : (s.pendSError).osLock = s.osLock := rfl
@[simp] theorem State.pendSError_trace (s : State) : (s.pendSError).trace = s.trace := rfl
@[simp] theorem State.pendSError_throttle (s : State) : (s.pendSError).throttle = s.throttle := rfl
@[simp] theorem State.pendSError_bus (s : State) : (s.pendSError).bus = s.bus := rfl
@[simp] theorem State.pendSError_events (s : State) : (s.pendSError).events = s.events := rfl
@[simp] theorem State.pendSError_inbox (s : State) : (s.pendSError).inbox = s.inbox := rfl
@[simp] theorem State.pendSError_exclBudget (s : State) :
    (s.pendSError).exclBudget = s.exclBudget := rfl
@[simp] theorem State.pendSError_draws (s : State) : (s.pendSError).draws = s.draws := rfl
@[simp] theorem State.pendSError_get (s : State) (q : SysReg) :
    (s.pendSError).get q = s.get q := by simp [State.get]

/-! `pendWith` -/

@[simp] theorem State.pendWith_cfg (s : State) (i : BitVec 25) : (s.pendWith i).cfg = s.cfg := rfl
@[simp] theorem State.pendWith_x (s : State) (i : BitVec 25) : (s.pendWith i).x = s.x := rfl
@[simp] theorem State.pendWith_sp (s : State) (i : BitVec 25) : (s.pendWith i).sp = s.sp := rfl
@[simp] theorem State.pendWith_pc (s : State) (i : BitVec 25) : (s.pendWith i).pc = s.pc := rfl
@[simp] theorem State.pendWith_pstate (s : State) (i : BitVec 25) :
    (s.pendWith i).pstate = s.pstate := rfl
@[simp] theorem State.pendWith_vec (s : State) (i : BitVec 25) : (s.pendWith i).vec = s.vec := rfl
@[simp] theorem State.pendWith_sys (s : State) (i : BitVec 25) : (s.pendWith i).sys = s.sys := rfl
@[simp] theorem State.pendWith_unsynced (s : State) (i : BitVec 25) :
    (s.pendWith i).unsynced = s.unsynced := rfl
@[simp] theorem State.pendWith_mem (s : State) (i : BitVec 25) : (s.pendWith i).mem = s.mem := rfl
@[simp] theorem State.pendWith_tags (s : State) (i : BitVec 25) :
    (s.pendWith i).tags = s.tags := rfl
@[simp] theorem State.pendWith_poison (s : State) (i : BitVec 25) :
    (s.pendWith i).poison = s.poison := rfl
@[simp] theorem State.pendWith_monitor (s : State) (i : BitVec 25) :
    (s.pendWith i).monitor = s.monitor := rfl
@[simp] theorem State.pendWith_eventReg (s : State) (i : BitVec 25) :
    (s.pendWith i).eventReg = s.eventReg := rfl
@[simp] theorem State.pendWith_sleep (s : State) (i : BitVec 25) :
    (s.pendWith i).sleep = s.sleep := rfl
@[simp] theorem State.pendWith_power (s : State) (i : BitVec 25) :
    (s.pendWith i).power = s.power := rfl
@[simp] theorem State.pendWith_tlb (s : State) (i : BitVec 25) : (s.pendWith i).tlb = s.tlb := rfl
@[simp] theorem State.pendWith_cache (s : State) (i : BitVec 25) :
    (s.pendWith i).cache = s.cache := rfl
@[simp] theorem State.pendWith_mwb (s : State) (i : BitVec 25) : (s.pendWith i).mwb = s.mwb := rfl
@[simp] theorem State.pendWith_returnStack (s : State) (i : BitVec 25) :
    (s.pendWith i).returnStack = s.returnStack := rfl
@[simp] theorem State.pendWith_predictor (s : State) (i : BitVec 25) :
    (s.pendWith i).predictor = s.predictor := rfl
@[simp] theorem State.pendWith_gic (s : State) (i : BitVec 25) : (s.pendWith i).gic = s.gic := rfl
@[simp] theorem State.pendWith_gicDisabled (s : State) (i : BitVec 25) :
    (s.pendWith i).gicDisabled = s.gicDisabled := rfl
@[simp] theorem State.pendWith_ram (s : State) (i : BitVec 25) : (s.pendWith i).ram = s.ram := rfl
@[simp] theorem State.pendWith_ras (s : State) (i : BitVec 25) : (s.pendWith i).ras = s.ras := rfl
@[simp] theorem State.pendWith_sysCount (s : State) (i : BitVec 25) :
    (s.pendWith i).sysCount = s.sysCount := rfl
@[simp] theorem State.pendWith_spe (s : State) (i : BitVec 25) : (s.pendWith i).spe = s.spe := rfl
@[simp] theorem State.pendWith_debug (s : State) (i : BitVec 25) :
    (s.pendWith i).dbg = s.dbg := rfl
@[simp] theorem State.pendWith_osLock (s : State) (i : BitVec 25) :
    (s.pendWith i).osLock = s.osLock := rfl
@[simp] theorem State.pendWith_trace (s : State) (i : BitVec 25) :
    (s.pendWith i).trace = s.trace := rfl
@[simp] theorem State.pendWith_throttle (s : State) (i : BitVec 25) :
    (s.pendWith i).throttle = s.throttle := rfl
@[simp] theorem State.pendWith_bus (s : State) (i : BitVec 25) : (s.pendWith i).bus = s.bus := rfl
@[simp] theorem State.pendWith_events (s : State) (i : BitVec 25) :
    (s.pendWith i).events = s.events := rfl
@[simp] theorem State.pendWith_inbox (s : State) (i : BitVec 25) :
    (s.pendWith i).inbox = s.inbox := rfl
@[simp] theorem State.pendWith_exclBudget (s : State) (i : BitVec 25) :
    (s.pendWith i).exclBudget = s.exclBudget := rfl
@[simp] theorem State.pendWith_draws (s : State) (i : BitVec 25) :
    (s.pendWith i).draws = s.draws := rfl
@[simp] theorem State.pendWith_get (s : State) (i : BitVec 25) (q : SysReg) :
    (s.pendWith i).get q = s.get q := by simp [State.get]

/-! `consumed` -/

@[simp] theorem State.consumed_cfg (s : State) : (s.consumed).cfg = s.cfg := rfl
@[simp] theorem State.consumed_x (s : State) : (s.consumed).x = s.x := rfl
@[simp] theorem State.consumed_sp (s : State) : (s.consumed).sp = s.sp := rfl
@[simp] theorem State.consumed_pc (s : State) : (s.consumed).pc = s.pc := rfl
@[simp] theorem State.consumed_pstate (s : State) : (s.consumed).pstate = s.pstate := rfl
@[simp] theorem State.consumed_vec (s : State) : (s.consumed).vec = s.vec := rfl
@[simp] theorem State.consumed_sys (s : State) : (s.consumed).sys = s.sys := rfl
@[simp] theorem State.consumed_unsynced (s : State) : (s.consumed).unsynced = s.unsynced := rfl
@[simp] theorem State.consumed_mem (s : State) : (s.consumed).mem = s.mem := rfl
@[simp] theorem State.consumed_tags (s : State) : (s.consumed).tags = s.tags := rfl
@[simp] theorem State.consumed_poison (s : State) : (s.consumed).poison = s.poison := rfl
@[simp] theorem State.consumed_monitor (s : State) : (s.consumed).monitor = s.monitor := rfl
@[simp] theorem State.consumed_eventReg (s : State) : (s.consumed).eventReg = s.eventReg := rfl
@[simp] theorem State.consumed_sleep (s : State) : (s.consumed).sleep = s.sleep := rfl
@[simp] theorem State.consumed_power (s : State) : (s.consumed).power = s.power := rfl
@[simp] theorem State.consumed_tlb (s : State) : (s.consumed).tlb = s.tlb := rfl
@[simp] theorem State.consumed_cache (s : State) : (s.consumed).cache = s.cache := rfl
@[simp] theorem State.consumed_mwb (s : State) : (s.consumed).mwb = s.mwb := rfl
@[simp] theorem State.consumed_returnStack (s : State) :
    (s.consumed).returnStack = s.returnStack := rfl
@[simp] theorem State.consumed_predictor (s : State) :
    (s.consumed).predictor = s.predictor := rfl
@[simp] theorem State.consumed_gic (s : State) : (s.consumed).gic = s.gic := rfl
@[simp] theorem State.consumed_gicDisabled (s : State) :
    (s.consumed).gicDisabled = s.gicDisabled := rfl
@[simp] theorem State.consumed_ram (s : State) : (s.consumed).ram = s.ram := rfl
@[simp] theorem State.consumed_ras (s : State) : (s.consumed).ras = s.ras := rfl
@[simp] theorem State.consumed_sysCount (s : State) : (s.consumed).sysCount = s.sysCount := rfl
@[simp] theorem State.consumed_spe (s : State) : (s.consumed).spe = s.spe := rfl
@[simp] theorem State.consumed_debug (s : State) : (s.consumed).dbg = s.dbg := rfl
@[simp] theorem State.consumed_osLock (s : State) : (s.consumed).osLock = s.osLock := rfl
@[simp] theorem State.consumed_trace (s : State) : (s.consumed).trace = s.trace := rfl
@[simp] theorem State.consumed_throttle (s : State) : (s.consumed).throttle = s.throttle := rfl
@[simp] theorem State.consumed_bus (s : State) : (s.consumed).bus = s.bus := rfl
@[simp] theorem State.consumed_events (s : State) : (s.consumed).events = s.events := rfl
@[simp] theorem State.consumed_inbox (s : State) : (s.consumed).inbox = s.inbox := rfl
@[simp] theorem State.consumed_exclBudget (s : State) :
    (s.consumed).exclBudget = s.exclBudget := rfl
@[simp] theorem State.consumed_draws (s : State) : (s.consumed).draws = s.draws := rfl
@[simp] theorem State.consumed_get (s : State) (q : SysReg) :
    (s.consumed).get q = s.get q := by simp [State.get]

/-! `enterDebug` -/

@[simp] theorem State.enterDebug_cfg (s : State) : (s.enterDebug).cfg = s.cfg := rfl
@[simp] theorem State.enterDebug_x (s : State) : (s.enterDebug).x = s.x := rfl
@[simp] theorem State.enterDebug_sp (s : State) : (s.enterDebug).sp = s.sp := rfl
@[simp] theorem State.enterDebug_pc (s : State) : (s.enterDebug).pc = s.pc := rfl
@[simp] theorem State.enterDebug_pstate (s : State) : (s.enterDebug).pstate = s.pstate := rfl
@[simp] theorem State.enterDebug_vec (s : State) : (s.enterDebug).vec = s.vec := rfl
@[simp] theorem State.enterDebug_sys (s : State) : (s.enterDebug).sys = s.sys := rfl
@[simp] theorem State.enterDebug_unsynced (s : State) : (s.enterDebug).unsynced = s.unsynced := rfl
@[simp] theorem State.enterDebug_mem (s : State) : (s.enterDebug).mem = s.mem := rfl
@[simp] theorem State.enterDebug_tags (s : State) : (s.enterDebug).tags = s.tags := rfl
@[simp] theorem State.enterDebug_poison (s : State) : (s.enterDebug).poison = s.poison := rfl
@[simp] theorem State.enterDebug_monitor (s : State) : (s.enterDebug).monitor = s.monitor := rfl
@[simp] theorem State.enterDebug_eventReg (s : State) : (s.enterDebug).eventReg = s.eventReg := rfl
@[simp] theorem State.enterDebug_sleep (s : State) : (s.enterDebug).sleep = s.sleep := rfl
@[simp] theorem State.enterDebug_power (s : State) : (s.enterDebug).power = s.power := rfl
@[simp] theorem State.enterDebug_tlb (s : State) : (s.enterDebug).tlb = s.tlb := rfl
@[simp] theorem State.enterDebug_cache (s : State) : (s.enterDebug).cache = s.cache := rfl
@[simp] theorem State.enterDebug_mwb (s : State) : (s.enterDebug).mwb = s.mwb := rfl
@[simp] theorem State.enterDebug_returnStack (s : State) :
    (s.enterDebug).returnStack = s.returnStack := rfl
@[simp] theorem State.enterDebug_predictor (s : State) :
    (s.enterDebug).predictor = s.predictor := rfl
@[simp] theorem State.enterDebug_irq (s : State) : (s.enterDebug).irq = s.irq := rfl
@[simp] theorem State.enterDebug_gic (s : State) : (s.enterDebug).gic = s.gic := rfl
@[simp] theorem State.enterDebug_gicDisabled (s : State) :
    (s.enterDebug).gicDisabled = s.gicDisabled := rfl
@[simp] theorem State.enterDebug_ram (s : State) : (s.enterDebug).ram = s.ram := rfl
@[simp] theorem State.enterDebug_ras (s : State) : (s.enterDebug).ras = s.ras := rfl
@[simp] theorem State.enterDebug_sysCount (s : State) : (s.enterDebug).sysCount = s.sysCount := rfl
@[simp] theorem State.enterDebug_spe (s : State) : (s.enterDebug).spe = s.spe := rfl
@[simp] theorem State.enterDebug_osLock (s : State) : (s.enterDebug).osLock = s.osLock := rfl
@[simp] theorem State.enterDebug_trace (s : State) : (s.enterDebug).trace = s.trace := rfl
@[simp] theorem State.enterDebug_throttle (s : State) : (s.enterDebug).throttle = s.throttle := rfl
@[simp] theorem State.enterDebug_bus (s : State) : (s.enterDebug).bus = s.bus := rfl
@[simp] theorem State.enterDebug_events (s : State) : (s.enterDebug).events = s.events := rfl
@[simp] theorem State.enterDebug_inbox (s : State) : (s.enterDebug).inbox = s.inbox := rfl
@[simp] theorem State.enterDebug_exclBudget (s : State) :
    (s.enterDebug).exclBudget = s.exclBudget := rfl
@[simp] theorem State.enterDebug_draws (s : State) : (s.enterDebug).draws = s.draws := rfl
@[simp] theorem State.enterDebug_get (s : State) (q : SysReg) :
    (s.enterDebug).get q = s.get q := by simp [State.get]

/-! `clearVse` -/

@[simp] theorem State.clearVse_cfg (s : State) : (s.clearVse).cfg = s.cfg := rfl
@[simp] theorem State.clearVse_x (s : State) : (s.clearVse).x = s.x := rfl
@[simp] theorem State.clearVse_sp (s : State) : (s.clearVse).sp = s.sp := rfl
@[simp] theorem State.clearVse_pc (s : State) : (s.clearVse).pc = s.pc := rfl
@[simp] theorem State.clearVse_pstate (s : State) : (s.clearVse).pstate = s.pstate := rfl
@[simp] theorem State.clearVse_vec (s : State) : (s.clearVse).vec = s.vec := rfl
@[simp] theorem State.clearVse_mem (s : State) : (s.clearVse).mem = s.mem := rfl
@[simp] theorem State.clearVse_tags (s : State) : (s.clearVse).tags = s.tags := rfl
@[simp] theorem State.clearVse_poison (s : State) : (s.clearVse).poison = s.poison := rfl
@[simp] theorem State.clearVse_monitor (s : State) : (s.clearVse).monitor = s.monitor := rfl
@[simp] theorem State.clearVse_eventReg (s : State) : (s.clearVse).eventReg = s.eventReg := rfl
@[simp] theorem State.clearVse_sleep (s : State) : (s.clearVse).sleep = s.sleep := rfl
@[simp] theorem State.clearVse_power (s : State) : (s.clearVse).power = s.power := rfl
@[simp] theorem State.clearVse_tlb (s : State) : (s.clearVse).tlb = s.tlb := rfl
@[simp] theorem State.clearVse_cache (s : State) : (s.clearVse).cache = s.cache := rfl
@[simp] theorem State.clearVse_mwb (s : State) : (s.clearVse).mwb = s.mwb := rfl
@[simp] theorem State.clearVse_returnStack (s : State) :
    (s.clearVse).returnStack = s.returnStack := rfl
@[simp] theorem State.clearVse_predictor (s : State) :
    (s.clearVse).predictor = s.predictor := rfl
@[simp] theorem State.clearVse_irq (s : State) : (s.clearVse).irq = s.irq := rfl
@[simp] theorem State.clearVse_gic (s : State) : (s.clearVse).gic = s.gic := rfl
@[simp] theorem State.clearVse_gicDisabled (s : State) :
    (s.clearVse).gicDisabled = s.gicDisabled := rfl
@[simp] theorem State.clearVse_ram (s : State) : (s.clearVse).ram = s.ram := rfl
@[simp] theorem State.clearVse_ras (s : State) : (s.clearVse).ras = s.ras := rfl
@[simp] theorem State.clearVse_sysCount (s : State) : (s.clearVse).sysCount = s.sysCount := rfl
@[simp] theorem State.clearVse_spe (s : State) : (s.clearVse).spe = s.spe := rfl
@[simp] theorem State.clearVse_debug (s : State) : (s.clearVse).dbg = s.dbg := rfl
@[simp] theorem State.clearVse_osLock (s : State) : (s.clearVse).osLock = s.osLock := rfl
@[simp] theorem State.clearVse_trace (s : State) : (s.clearVse).trace = s.trace := rfl
@[simp] theorem State.clearVse_throttle (s : State) : (s.clearVse).throttle = s.throttle := rfl
@[simp] theorem State.clearVse_bus (s : State) : (s.clearVse).bus = s.bus := rfl
@[simp] theorem State.clearVse_events (s : State) : (s.clearVse).events = s.events := rfl
@[simp] theorem State.clearVse_inbox (s : State) : (s.clearVse).inbox = s.inbox := rfl
@[simp] theorem State.clearVse_exclBudget (s : State) :
    (s.clearVse).exclBudget = s.exclBudget := rfl
@[simp] theorem State.clearVse_draws (s : State) : (s.clearVse).draws = s.draws := rfl

/-! `healBlock` -/

@[simp] theorem State.healBlock_cfg (s : State) (b : Nat) : (s.healBlock b).cfg = s.cfg := rfl
@[simp] theorem State.healBlock_x (s : State) (b : Nat) : (s.healBlock b).x = s.x := rfl
@[simp] theorem State.healBlock_sp (s : State) (b : Nat) : (s.healBlock b).sp = s.sp := rfl
@[simp] theorem State.healBlock_pc (s : State) (b : Nat) : (s.healBlock b).pc = s.pc := rfl
@[simp] theorem State.healBlock_pstate (s : State) (b : Nat) :
    (s.healBlock b).pstate = s.pstate := rfl
@[simp] theorem State.healBlock_vec (s : State) (b : Nat) : (s.healBlock b).vec = s.vec := rfl
@[simp] theorem State.healBlock_sys (s : State) (b : Nat) : (s.healBlock b).sys = s.sys := rfl
@[simp] theorem State.healBlock_unsynced (s : State) (b : Nat) :
    (s.healBlock b).unsynced = s.unsynced := rfl
@[simp] theorem State.healBlock_mem (s : State) (b : Nat) : (s.healBlock b).mem = s.mem := rfl
@[simp] theorem State.healBlock_tags (s : State) (b : Nat) : (s.healBlock b).tags = s.tags := rfl
@[simp] theorem State.healBlock_monitor (s : State) (b : Nat) :
    (s.healBlock b).monitor = s.monitor := rfl
@[simp] theorem State.healBlock_eventReg (s : State) (b : Nat) :
    (s.healBlock b).eventReg = s.eventReg := rfl
@[simp] theorem State.healBlock_sleep (s : State) (b : Nat) : (s.healBlock b).sleep = s.sleep := rfl
@[simp] theorem State.healBlock_power (s : State) (b : Nat) : (s.healBlock b).power = s.power := rfl
@[simp] theorem State.healBlock_tlb (s : State) (b : Nat) : (s.healBlock b).tlb = s.tlb := rfl
@[simp] theorem State.healBlock_mwb (s : State) (b : Nat) : (s.healBlock b).mwb = s.mwb := rfl
@[simp] theorem State.healBlock_returnStack (s : State) (b : Nat) :
    (s.healBlock b).returnStack = s.returnStack := rfl
@[simp] theorem State.healBlock_predictor (s : State) (b : Nat) :
    (s.healBlock b).predictor = s.predictor := rfl
@[simp] theorem State.healBlock_irq (s : State) (b : Nat) : (s.healBlock b).irq = s.irq := rfl
@[simp] theorem State.healBlock_gic (s : State) (b : Nat) : (s.healBlock b).gic = s.gic := rfl
@[simp] theorem State.healBlock_gicDisabled (s : State) (b : Nat) :
    (s.healBlock b).gicDisabled = s.gicDisabled := rfl
@[simp] theorem State.healBlock_ram (s : State) (b : Nat) : (s.healBlock b).ram = s.ram := rfl
@[simp] theorem State.healBlock_ras (s : State) (b : Nat) : (s.healBlock b).ras = s.ras := rfl
@[simp] theorem State.healBlock_sysCount (s : State) (b : Nat) :
    (s.healBlock b).sysCount = s.sysCount := rfl
@[simp] theorem State.healBlock_spe (s : State) (b : Nat) : (s.healBlock b).spe = s.spe := rfl
@[simp] theorem State.healBlock_debug (s : State) (b : Nat) : (s.healBlock b).dbg = s.dbg := rfl
@[simp] theorem State.healBlock_osLock (s : State) (b : Nat) :
    (s.healBlock b).osLock = s.osLock := rfl
@[simp] theorem State.healBlock_trace (s : State) (b : Nat) : (s.healBlock b).trace = s.trace := rfl
@[simp] theorem State.healBlock_throttle (s : State) (b : Nat) :
    (s.healBlock b).throttle = s.throttle := rfl
@[simp] theorem State.healBlock_bus (s : State) (b : Nat) : (s.healBlock b).bus = s.bus := rfl
@[simp] theorem State.healBlock_events (s : State) (b : Nat) :
    (s.healBlock b).events = s.events := rfl
@[simp] theorem State.healBlock_inbox (s : State) (b : Nat) : (s.healBlock b).inbox = s.inbox := rfl
@[simp] theorem State.healBlock_exclBudget (s : State) (b : Nat) :
    (s.healBlock b).exclBudget = s.exclBudget := rfl
@[simp] theorem State.healBlock_draws (s : State) (b : Nat) : (s.healBlock b).draws = s.draws := rfl
@[simp] theorem State.healBlock_get (s : State) (b : Nat) (q : SysReg) :
    (s.healBlock b).get q = s.get q := by simp [State.get]

/-! `tick` -/

@[simp] theorem State.tick_cfg (s : State) : (s.tick).cfg = s.cfg := by rw [State.tick_eq]
@[simp] theorem State.tick_x (s : State) : (s.tick).x = s.x := by rw [State.tick_eq]
@[simp] theorem State.tick_sp (s : State) : (s.tick).sp = s.sp := by rw [State.tick_eq]
@[simp] theorem State.tick_pc (s : State) : (s.tick).pc = s.pc := by rw [State.tick_eq]
@[simp] theorem State.tick_pstate (s : State) : (s.tick).pstate = s.pstate := by rw [State.tick_eq]
@[simp] theorem State.tick_vec (s : State) : (s.tick).vec = s.vec := by rw [State.tick_eq]
@[simp] theorem State.tick_mem (s : State) : (s.tick).mem = s.mem := by rw [State.tick_eq]
@[simp] theorem State.tick_tags (s : State) : (s.tick).tags = s.tags := by rw [State.tick_eq]
@[simp] theorem State.tick_monitor (s : State) :
    (s.tick).monitor = s.monitor := by rw [State.tick_eq]
@[simp] theorem State.tick_eventReg (s : State) :
    (s.tick).eventReg = s.eventReg := by rw [State.tick_eq]
@[simp] theorem State.tick_sleep (s : State) : (s.tick).sleep = s.sleep := by rw [State.tick_eq]
@[simp] theorem State.tick_power (s : State) : (s.tick).power = s.power := by rw [State.tick_eq]
@[simp] theorem State.tick_tlb (s : State) : (s.tick).tlb = s.tlb := by rw [State.tick_eq]
@[simp] theorem State.tick_l1i (s : State) : s.tick.cache.l1i = s.cache.l1i := by
  rw [State.tick_cache]
@[simp] theorem State.tick_l1d (s : State) : s.tick.cache.l1d = s.cache.l1d := by
  rw [State.tick_cache]
@[simp] theorem State.tick_l2 (s : State) : s.tick.cache.l2 = s.cache.l2 := by
  rw [State.tick_cache]
@[simp] theorem State.tick_old (s : State) : s.tick.cache.old = s.cache.old := by
  rw [State.tick_cache]
@[simp] theorem State.tick_older (s : State) : s.tick.cache.older = s.cache.older := by
  rw [State.tick_cache]
@[simp] theorem State.tick_lookups (s : State) : s.tick.cache.lookups = s.cache.lookups := by
  rw [State.tick_cache]
@[simp] theorem State.tick_evictions (s : State) :
    s.tick.cache.evictions = s.cache.evictions := by rw [State.tick_cache]
@[simp] theorem State.tick_mwb (s : State) : (s.tick).mwb = s.mwb := by rw [State.tick_eq]
@[simp] theorem State.tick_returnStack (s : State) :
    (s.tick).returnStack = s.returnStack := by rw [State.tick_eq]
@[simp] theorem State.tick_predictor (s : State) :
    (s.tick).predictor = s.predictor := by rw [State.tick_eq]
@[simp] theorem State.tick_gic (s : State) : (s.tick).gic = s.gic := by rw [State.tick_eq]
@[simp] theorem State.tick_gicDisabled (s : State) :
    (s.tick).gicDisabled = s.gicDisabled := by rw [State.tick_eq]
@[simp] theorem State.tick_ram (s : State) : (s.tick).ram = s.ram := by rw [State.tick_eq]
@[simp] theorem State.tick_spe (s : State) : (s.tick).spe = s.spe := by rw [State.tick_eq]
@[simp] theorem State.tick_debug (s : State) : (s.tick).dbg = s.dbg := by rw [State.tick_eq]
@[simp] theorem State.tick_osLock (s : State) : (s.tick).osLock = s.osLock := by rw [State.tick_eq]
@[simp] theorem State.tick_throttle (s : State) :
    (s.tick).throttle = s.throttle := by rw [State.tick_eq]
@[simp] theorem State.tick_bus (s : State) : (s.tick).bus = s.bus := by rw [State.tick_eq]
@[simp] theorem State.tick_events (s : State) : (s.tick).events = s.events := by rw [State.tick_eq]
@[simp] theorem State.tick_inbox (s : State) : (s.tick).inbox = s.inbox := by rw [State.tick_eq]
@[simp] theorem State.tick_exclBudget (s : State) :
    (s.tick).exclBudget = s.exclBudget := by rw [State.tick_eq]

/-! `setX` -/

@[simp] theorem State.setX_cfg (s : State) (r : Reg) (v : Word) :
    (s.setX r v).cfg = s.cfg := by unfold State.setX; split <;> rfl
@[simp] theorem State.setX_sp (s : State) (r : Reg) (v : Word) :
    (s.setX r v).sp = s.sp := by unfold State.setX; split <;> rfl
@[simp] theorem State.setX_pc (s : State) (r : Reg) (v : Word) :
    (s.setX r v).pc = s.pc := by unfold State.setX; split <;> rfl
@[simp] theorem State.setX_pstate (s : State) (r : Reg) (v : Word) :
    (s.setX r v).pstate = s.pstate := by unfold State.setX; split <;> rfl
@[simp] theorem State.setX_vec (s : State) (r : Reg) (v : Word) :
    (s.setX r v).vec = s.vec := by unfold State.setX; split <;> rfl
@[simp] theorem State.setX_sys (s : State) (r : Reg) (v : Word) :
    (s.setX r v).sys = s.sys := by unfold State.setX; split <;> rfl
@[simp] theorem State.setX_unsynced (s : State) (r : Reg) (v : Word) :
    (s.setX r v).unsynced = s.unsynced := by unfold State.setX; split <;> rfl
@[simp] theorem State.setX_mem (s : State) (r : Reg) (v : Word) :
    (s.setX r v).mem = s.mem := by unfold State.setX; split <;> rfl
@[simp] theorem State.setX_tags (s : State) (r : Reg) (v : Word) :
    (s.setX r v).tags = s.tags := by unfold State.setX; split <;> rfl
@[simp] theorem State.setX_poison (s : State) (r : Reg) (v : Word) :
    (s.setX r v).poison = s.poison := by unfold State.setX; split <;> rfl
@[simp] theorem State.setX_monitor (s : State) (r : Reg) (v : Word) :
    (s.setX r v).monitor = s.monitor := by unfold State.setX; split <;> rfl
@[simp] theorem State.setX_eventReg (s : State) (r : Reg) (v : Word) :
    (s.setX r v).eventReg = s.eventReg := by unfold State.setX; split <;> rfl
@[simp] theorem State.setX_sleep (s : State) (r : Reg) (v : Word) :
    (s.setX r v).sleep = s.sleep := by unfold State.setX; split <;> rfl
@[simp] theorem State.setX_power (s : State) (r : Reg) (v : Word) :
    (s.setX r v).power = s.power := by unfold State.setX; split <;> rfl
@[simp] theorem State.setX_tlb (s : State) (r : Reg) (v : Word) :
    (s.setX r v).tlb = s.tlb := by unfold State.setX; split <;> rfl
@[simp] theorem State.setX_cache (s : State) (r : Reg) (v : Word) :
    (s.setX r v).cache = s.cache := by unfold State.setX; split <;> rfl
@[simp] theorem State.setX_mwb (s : State) (r : Reg) (v : Word) :
    (s.setX r v).mwb = s.mwb := by unfold State.setX; split <;> rfl
@[simp] theorem State.setX_returnStack (s : State) (r : Reg) (v : Word) :
    (s.setX r v).returnStack = s.returnStack := by unfold State.setX; split <;> rfl
@[simp] theorem State.setX_predictor (s : State) (r : Reg) (v : Word) :
    (s.setX r v).predictor = s.predictor := by unfold State.setX; split <;> rfl
@[simp] theorem State.setX_irq (s : State) (r : Reg) (v : Word) :
    (s.setX r v).irq = s.irq := by unfold State.setX; split <;> rfl
@[simp] theorem State.setX_gic (s : State) (r : Reg) (v : Word) :
    (s.setX r v).gic = s.gic := by unfold State.setX; split <;> rfl
@[simp] theorem State.setX_gicDisabled (s : State) (r : Reg) (v : Word) :
    (s.setX r v).gicDisabled = s.gicDisabled := by unfold State.setX; split <;> rfl
@[simp] theorem State.setX_ram (s : State) (r : Reg) (v : Word) :
    (s.setX r v).ram = s.ram := by unfold State.setX; split <;> rfl
@[simp] theorem State.setX_ras (s : State) (r : Reg) (v : Word) :
    (s.setX r v).ras = s.ras := by unfold State.setX; split <;> rfl
@[simp] theorem State.setX_sysCount (s : State) (r : Reg) (v : Word) :
    (s.setX r v).sysCount = s.sysCount := by unfold State.setX; split <;> rfl
@[simp] theorem State.setX_spe (s : State) (r : Reg) (v : Word) :
    (s.setX r v).spe = s.spe := by unfold State.setX; split <;> rfl
@[simp] theorem State.setX_debug (s : State) (r : Reg) (v : Word) :
    (s.setX r v).dbg = s.dbg := by unfold State.setX; split <;> rfl
@[simp] theorem State.setX_osLock (s : State) (r : Reg) (v : Word) :
    (s.setX r v).osLock = s.osLock := by unfold State.setX; split <;> rfl
@[simp] theorem State.setX_trace (s : State) (r : Reg) (v : Word) :
    (s.setX r v).trace = s.trace := by unfold State.setX; split <;> rfl
@[simp] theorem State.setX_throttle (s : State) (r : Reg) (v : Word) :
    (s.setX r v).throttle = s.throttle := by unfold State.setX; split <;> rfl
@[simp] theorem State.setX_bus (s : State) (r : Reg) (v : Word) :
    (s.setX r v).bus = s.bus := by unfold State.setX; split <;> rfl
@[simp] theorem State.setX_events (s : State) (r : Reg) (v : Word) :
    (s.setX r v).events = s.events := by unfold State.setX; split <;> rfl
@[simp] theorem State.setX_inbox (s : State) (r : Reg) (v : Word) :
    (s.setX r v).inbox = s.inbox := by unfold State.setX; split <;> rfl
@[simp] theorem State.setX_exclBudget (s : State) (r : Reg) (v : Word) :
    (s.setX r v).exclBudget = s.exclBudget := by unfold State.setX; split <;> rfl
@[simp] theorem State.setX_draws (s : State) (r : Reg) (v : Word) :
    (s.setX r v).draws = s.draws := by unfold State.setX; split <;> rfl
@[simp] theorem State.setX_get (s : State) (r : Reg) (v : Word) (q : SysReg) :
    (s.setX r v).get q = s.get q := by simp [State.get]

/-! `traceP0` -/

@[simp] theorem State.traceP0_cfg (s : State) (e : TraceElem) :
    (s.traceP0 e).cfg = s.cfg := by unfold State.traceP0; split <;> [split <;> rfl; rfl]
@[simp] theorem State.traceP0_x (s : State) (e : TraceElem) :
    (s.traceP0 e).x = s.x := by unfold State.traceP0; split <;> [split <;> rfl; rfl]
@[simp] theorem State.traceP0_sp (s : State) (e : TraceElem) :
    (s.traceP0 e).sp = s.sp := by unfold State.traceP0; split <;> [split <;> rfl; rfl]
@[simp] theorem State.traceP0_pc (s : State) (e : TraceElem) :
    (s.traceP0 e).pc = s.pc := by unfold State.traceP0; split <;> [split <;> rfl; rfl]
@[simp] theorem State.traceP0_pstate (s : State) (e : TraceElem) :
    (s.traceP0 e).pstate = s.pstate := by unfold State.traceP0; split <;> [split <;> rfl; rfl]
@[simp] theorem State.traceP0_vec (s : State) (e : TraceElem) :
    (s.traceP0 e).vec = s.vec := by unfold State.traceP0; split <;> [split <;> rfl; rfl]
@[simp] theorem State.traceP0_sys (s : State) (e : TraceElem) :
    (s.traceP0 e).sys = s.sys := by unfold State.traceP0; split <;> [split <;> rfl; rfl]
@[simp] theorem State.traceP0_unsynced (s : State) (e : TraceElem) :
    (s.traceP0 e).unsynced = s.unsynced := by unfold State.traceP0; split <;> [split <;> rfl; rfl]
@[simp] theorem State.traceP0_mem (s : State) (e : TraceElem) :
    (s.traceP0 e).mem = s.mem := by unfold State.traceP0; split <;> [split <;> rfl; rfl]
@[simp] theorem State.traceP0_tags (s : State) (e : TraceElem) :
    (s.traceP0 e).tags = s.tags := by unfold State.traceP0; split <;> [split <;> rfl; rfl]
@[simp] theorem State.traceP0_poison (s : State) (e : TraceElem) :
    (s.traceP0 e).poison = s.poison := by unfold State.traceP0; split <;> [split <;> rfl; rfl]
@[simp] theorem State.traceP0_monitor (s : State) (e : TraceElem) :
    (s.traceP0 e).monitor = s.monitor := by unfold State.traceP0; split <;> [split <;> rfl; rfl]
@[simp] theorem State.traceP0_eventReg (s : State) (e : TraceElem) :
    (s.traceP0 e).eventReg = s.eventReg := by unfold State.traceP0; split <;> [split <;> rfl; rfl]
@[simp] theorem State.traceP0_sleep (s : State) (e : TraceElem) :
    (s.traceP0 e).sleep = s.sleep := by unfold State.traceP0; split <;> [split <;> rfl; rfl]
@[simp] theorem State.traceP0_power (s : State) (e : TraceElem) :
    (s.traceP0 e).power = s.power := by unfold State.traceP0; split <;> [split <;> rfl; rfl]
@[simp] theorem State.traceP0_tlb (s : State) (e : TraceElem) :
    (s.traceP0 e).tlb = s.tlb := by unfold State.traceP0; split <;> [split <;> rfl; rfl]
@[simp] theorem State.traceP0_cache (s : State) (e : TraceElem) :
    (s.traceP0 e).cache = s.cache := by unfold State.traceP0; split <;> [split <;> rfl; rfl]
@[simp] theorem State.traceP0_mwb (s : State) (e : TraceElem) :
    (s.traceP0 e).mwb = s.mwb := by unfold State.traceP0; split <;> [split <;> rfl; rfl]
@[simp] theorem State.traceP0_returnStack (s : State) (e : TraceElem) :
    (s.traceP0 e).returnStack = s.returnStack := by unfold State.traceP0; split <;> [split <;> rfl; rfl]
@[simp] theorem State.traceP0_predictor (s : State) (e : TraceElem) :
    (s.traceP0 e).predictor = s.predictor := by unfold State.traceP0; split <;> [split <;> rfl; rfl]
@[simp] theorem State.traceP0_irq (s : State) (e : TraceElem) :
    (s.traceP0 e).irq = s.irq := by unfold State.traceP0; split <;> [split <;> rfl; rfl]
@[simp] theorem State.traceP0_gic (s : State) (e : TraceElem) :
    (s.traceP0 e).gic = s.gic := by unfold State.traceP0; split <;> [split <;> rfl; rfl]
@[simp] theorem State.traceP0_gicDisabled (s : State) (e : TraceElem) :
    (s.traceP0 e).gicDisabled = s.gicDisabled := by unfold State.traceP0; split <;> [split <;> rfl; rfl]
@[simp] theorem State.traceP0_ram (s : State) (e : TraceElem) :
    (s.traceP0 e).ram = s.ram := by unfold State.traceP0; split <;> [split <;> rfl; rfl]
@[simp] theorem State.traceP0_ras (s : State) (e : TraceElem) :
    (s.traceP0 e).ras = s.ras := by unfold State.traceP0; split <;> [split <;> rfl; rfl]
@[simp] theorem State.traceP0_sysCount (s : State) (e : TraceElem) :
    (s.traceP0 e).sysCount = s.sysCount := by unfold State.traceP0; split <;> [split <;> rfl; rfl]
@[simp] theorem State.traceP0_spe (s : State) (e : TraceElem) :
    (s.traceP0 e).spe = s.spe := by unfold State.traceP0; split <;> [split <;> rfl; rfl]
@[simp] theorem State.traceP0_debug (s : State) (e : TraceElem) :
    (s.traceP0 e).dbg = s.dbg := by unfold State.traceP0; split <;> [split <;> rfl; rfl]
@[simp] theorem State.traceP0_osLock (s : State) (e : TraceElem) :
    (s.traceP0 e).osLock = s.osLock := by unfold State.traceP0; split <;> [split <;> rfl; rfl]
@[simp] theorem State.traceP0_throttle (s : State) (e : TraceElem) :
    (s.traceP0 e).throttle = s.throttle := by unfold State.traceP0; split <;> [split <;> rfl; rfl]
@[simp] theorem State.traceP0_bus (s : State) (e : TraceElem) :
    (s.traceP0 e).bus = s.bus := by unfold State.traceP0; split <;> [split <;> rfl; rfl]
@[simp] theorem State.traceP0_events (s : State) (e : TraceElem) :
    (s.traceP0 e).events = s.events := by unfold State.traceP0; split <;> [split <;> rfl; rfl]
@[simp] theorem State.traceP0_inbox (s : State) (e : TraceElem) :
    (s.traceP0 e).inbox = s.inbox := by unfold State.traceP0; split <;> [split <;> rfl; rfl]
@[simp] theorem State.traceP0_exclBudget (s : State) (e : TraceElem) :
    (s.traceP0 e).exclBudget = s.exclBudget := by unfold State.traceP0; split <;> [split <;> rfl; rfl]
@[simp] theorem State.traceP0_draws (s : State) (e : TraceElem) :
    (s.traceP0 e).draws = s.draws := by unfold State.traceP0; split <;> [split <;> rfl; rfl]
@[simp] theorem State.traceP0_get (s : State) (e : TraceElem) (q : SysReg) :
    (s.traceP0 e).get q = s.get q := by simp [State.get]

/-! `ownStore` -/

@[simp] theorem State.ownStore_cfg (s : State) (pa : BitVec 40) (ns : Bool) :
    (s.ownStore pa ns).cfg = s.cfg := by unfold State.ownStore; split <;> rfl
@[simp] theorem State.ownStore_x (s : State) (pa : BitVec 40) (ns : Bool) :
    (s.ownStore pa ns).x = s.x := by unfold State.ownStore; split <;> rfl
@[simp] theorem State.ownStore_sp (s : State) (pa : BitVec 40) (ns : Bool) :
    (s.ownStore pa ns).sp = s.sp := by unfold State.ownStore; split <;> rfl
@[simp] theorem State.ownStore_pc (s : State) (pa : BitVec 40) (ns : Bool) :
    (s.ownStore pa ns).pc = s.pc := by unfold State.ownStore; split <;> rfl
@[simp] theorem State.ownStore_pstate (s : State) (pa : BitVec 40) (ns : Bool) :
    (s.ownStore pa ns).pstate = s.pstate := by unfold State.ownStore; split <;> rfl
@[simp] theorem State.ownStore_vec (s : State) (pa : BitVec 40) (ns : Bool) :
    (s.ownStore pa ns).vec = s.vec := by unfold State.ownStore; split <;> rfl
@[simp] theorem State.ownStore_sys (s : State) (pa : BitVec 40) (ns : Bool) :
    (s.ownStore pa ns).sys = s.sys := by unfold State.ownStore; split <;> rfl
@[simp] theorem State.ownStore_unsynced (s : State) (pa : BitVec 40) (ns : Bool) :
    (s.ownStore pa ns).unsynced = s.unsynced := by unfold State.ownStore; split <;> rfl
@[simp] theorem State.ownStore_mem (s : State) (pa : BitVec 40) (ns : Bool) :
    (s.ownStore pa ns).mem = s.mem := by unfold State.ownStore; split <;> rfl
@[simp] theorem State.ownStore_tags (s : State) (pa : BitVec 40) (ns : Bool) :
    (s.ownStore pa ns).tags = s.tags := by unfold State.ownStore; split <;> rfl
@[simp] theorem State.ownStore_poison (s : State) (pa : BitVec 40) (ns : Bool) :
    (s.ownStore pa ns).poison = s.poison := by unfold State.ownStore; split <;> rfl
@[simp] theorem State.ownStore_eventReg (s : State) (pa : BitVec 40) (ns : Bool) :
    (s.ownStore pa ns).eventReg = s.eventReg := by unfold State.ownStore; split <;> rfl
@[simp] theorem State.ownStore_sleep (s : State) (pa : BitVec 40) (ns : Bool) :
    (s.ownStore pa ns).sleep = s.sleep := by unfold State.ownStore; split <;> rfl
@[simp] theorem State.ownStore_power (s : State) (pa : BitVec 40) (ns : Bool) :
    (s.ownStore pa ns).power = s.power := by unfold State.ownStore; split <;> rfl
@[simp] theorem State.ownStore_tlb (s : State) (pa : BitVec 40) (ns : Bool) :
    (s.ownStore pa ns).tlb = s.tlb := by unfold State.ownStore; split <;> rfl
@[simp] theorem State.ownStore_cache (s : State) (pa : BitVec 40) (ns : Bool) :
    (s.ownStore pa ns).cache = s.cache := by unfold State.ownStore; split <;> rfl
@[simp] theorem State.ownStore_mwb (s : State) (pa : BitVec 40) (ns : Bool) :
    (s.ownStore pa ns).mwb = s.mwb := by unfold State.ownStore; split <;> rfl
@[simp] theorem State.ownStore_returnStack (s : State) (pa : BitVec 40) (ns : Bool) :
    (s.ownStore pa ns).returnStack = s.returnStack := by unfold State.ownStore; split <;> rfl
@[simp] theorem State.ownStore_predictor (s : State) (pa : BitVec 40) (ns : Bool) :
    (s.ownStore pa ns).predictor = s.predictor := by unfold State.ownStore; split <;> rfl
@[simp] theorem State.ownStore_irq (s : State) (pa : BitVec 40) (ns : Bool) :
    (s.ownStore pa ns).irq = s.irq := by unfold State.ownStore; split <;> rfl
@[simp] theorem State.ownStore_gic (s : State) (pa : BitVec 40) (ns : Bool) :
    (s.ownStore pa ns).gic = s.gic := by unfold State.ownStore; split <;> rfl
@[simp] theorem State.ownStore_gicDisabled (s : State) (pa : BitVec 40) (ns : Bool) :
    (s.ownStore pa ns).gicDisabled = s.gicDisabled := by unfold State.ownStore; split <;> rfl
@[simp] theorem State.ownStore_ram (s : State) (pa : BitVec 40) (ns : Bool) :
    (s.ownStore pa ns).ram = s.ram := by unfold State.ownStore; split <;> rfl
@[simp] theorem State.ownStore_ras (s : State) (pa : BitVec 40) (ns : Bool) :
    (s.ownStore pa ns).ras = s.ras := by unfold State.ownStore; split <;> rfl
@[simp] theorem State.ownStore_sysCount (s : State) (pa : BitVec 40) (ns : Bool) :
    (s.ownStore pa ns).sysCount = s.sysCount := by unfold State.ownStore; split <;> rfl
@[simp] theorem State.ownStore_spe (s : State) (pa : BitVec 40) (ns : Bool) :
    (s.ownStore pa ns).spe = s.spe := by unfold State.ownStore; split <;> rfl
@[simp] theorem State.ownStore_debug (s : State) (pa : BitVec 40) (ns : Bool) :
    (s.ownStore pa ns).dbg = s.dbg := by unfold State.ownStore; split <;> rfl
@[simp] theorem State.ownStore_osLock (s : State) (pa : BitVec 40) (ns : Bool) :
    (s.ownStore pa ns).osLock = s.osLock := by unfold State.ownStore; split <;> rfl
@[simp] theorem State.ownStore_trace (s : State) (pa : BitVec 40) (ns : Bool) :
    (s.ownStore pa ns).trace = s.trace := by unfold State.ownStore; split <;> rfl
@[simp] theorem State.ownStore_throttle (s : State) (pa : BitVec 40) (ns : Bool) :
    (s.ownStore pa ns).throttle = s.throttle := by unfold State.ownStore; split <;> rfl
@[simp] theorem State.ownStore_bus (s : State) (pa : BitVec 40) (ns : Bool) :
    (s.ownStore pa ns).bus = s.bus := by unfold State.ownStore; split <;> rfl
@[simp] theorem State.ownStore_events (s : State) (pa : BitVec 40) (ns : Bool) :
    (s.ownStore pa ns).events = s.events := by unfold State.ownStore; split <;> rfl
@[simp] theorem State.ownStore_inbox (s : State) (pa : BitVec 40) (ns : Bool) :
    (s.ownStore pa ns).inbox = s.inbox := by unfold State.ownStore; split <;> rfl
@[simp] theorem State.ownStore_exclBudget (s : State) (pa : BitVec 40) (ns : Bool) :
    (s.ownStore pa ns).exclBudget = s.exclBudget := by unfold State.ownStore; split <;> rfl
@[simp] theorem State.ownStore_draws (s : State) (pa : BitVec 40) (ns : Bool) :
    (s.ownStore pa ns).draws = s.draws := by unfold State.ownStore; split <;> rfl
@[simp] theorem State.ownStore_get (s : State) (pa : BitVec 40) (ns : Bool) (q : SysReg) :
    (s.ownStore pa ns).get q = s.get q := by simp [State.get]

/-! `asyncError` -/

@[simp] theorem State.asyncError_cfg (s : State) (m : Mapped) (n : Nat) :
    (s.asyncError m n).cfg = s.cfg := by unfold State.asyncError; split <;> rfl
@[simp] theorem State.asyncError_x (s : State) (m : Mapped) (n : Nat) :
    (s.asyncError m n).x = s.x := by unfold State.asyncError; split <;> rfl
@[simp] theorem State.asyncError_sp (s : State) (m : Mapped) (n : Nat) :
    (s.asyncError m n).sp = s.sp := by unfold State.asyncError; split <;> rfl
@[simp] theorem State.asyncError_pc (s : State) (m : Mapped) (n : Nat) :
    (s.asyncError m n).pc = s.pc := by unfold State.asyncError; split <;> rfl
@[simp] theorem State.asyncError_pstate (s : State) (m : Mapped) (n : Nat) :
    (s.asyncError m n).pstate = s.pstate := by unfold State.asyncError; split <;> rfl
@[simp] theorem State.asyncError_vec (s : State) (m : Mapped) (n : Nat) :
    (s.asyncError m n).vec = s.vec := by unfold State.asyncError; split <;> rfl
@[simp] theorem State.asyncError_sys (s : State) (m : Mapped) (n : Nat) :
    (s.asyncError m n).sys = s.sys := by unfold State.asyncError; split <;> rfl
@[simp] theorem State.asyncError_unsynced (s : State) (m : Mapped) (n : Nat) :
    (s.asyncError m n).unsynced = s.unsynced := by unfold State.asyncError; split <;> rfl
@[simp] theorem State.asyncError_mem (s : State) (m : Mapped) (n : Nat) :
    (s.asyncError m n).mem = s.mem := by unfold State.asyncError; split <;> rfl
@[simp] theorem State.asyncError_tags (s : State) (m : Mapped) (n : Nat) :
    (s.asyncError m n).tags = s.tags := by unfold State.asyncError; split <;> rfl
@[simp] theorem State.asyncError_poison (s : State) (m : Mapped) (n : Nat) :
    (s.asyncError m n).poison = s.poison := by unfold State.asyncError; split <;> rfl
@[simp] theorem State.asyncError_monitor (s : State) (m : Mapped) (n : Nat) :
    (s.asyncError m n).monitor = s.monitor := by unfold State.asyncError; split <;> rfl
@[simp] theorem State.asyncError_eventReg (s : State) (m : Mapped) (n : Nat) :
    (s.asyncError m n).eventReg = s.eventReg := by unfold State.asyncError; split <;> rfl
@[simp] theorem State.asyncError_sleep (s : State) (m : Mapped) (n : Nat) :
    (s.asyncError m n).sleep = s.sleep := by unfold State.asyncError; split <;> rfl
@[simp] theorem State.asyncError_power (s : State) (m : Mapped) (n : Nat) :
    (s.asyncError m n).power = s.power := by unfold State.asyncError; split <;> rfl
@[simp] theorem State.asyncError_tlb (s : State) (m : Mapped) (n : Nat) :
    (s.asyncError m n).tlb = s.tlb := by unfold State.asyncError; split <;> rfl
@[simp] theorem State.asyncError_cache (s : State) (m : Mapped) (n : Nat) :
    (s.asyncError m n).cache = s.cache := by unfold State.asyncError; split <;> rfl
@[simp] theorem State.asyncError_mwb (s : State) (m : Mapped) (n : Nat) :
    (s.asyncError m n).mwb = s.mwb := by unfold State.asyncError; split <;> rfl
@[simp] theorem State.asyncError_returnStack (s : State) (m : Mapped) (n : Nat) :
    (s.asyncError m n).returnStack = s.returnStack := by unfold State.asyncError; split <;> rfl
@[simp] theorem State.asyncError_predictor (s : State) (m : Mapped) (n : Nat) :
    (s.asyncError m n).predictor = s.predictor := by unfold State.asyncError; split <;> rfl
@[simp] theorem State.asyncError_gic (s : State) (m : Mapped) (n : Nat) :
    (s.asyncError m n).gic = s.gic := by unfold State.asyncError; split <;> rfl
@[simp] theorem State.asyncError_gicDisabled (s : State) (m : Mapped) (n : Nat) :
    (s.asyncError m n).gicDisabled = s.gicDisabled := by unfold State.asyncError; split <;> rfl
@[simp] theorem State.asyncError_ram (s : State) (m : Mapped) (n : Nat) :
    (s.asyncError m n).ram = s.ram := by unfold State.asyncError; split <;> rfl
@[simp] theorem State.asyncError_ras (s : State) (m : Mapped) (n : Nat) :
    (s.asyncError m n).ras = s.ras := by unfold State.asyncError; split <;> rfl
@[simp] theorem State.asyncError_sysCount (s : State) (m : Mapped) (n : Nat) :
    (s.asyncError m n).sysCount = s.sysCount := by unfold State.asyncError; split <;> rfl
@[simp] theorem State.asyncError_spe (s : State) (m : Mapped) (n : Nat) :
    (s.asyncError m n).spe = s.spe := by unfold State.asyncError; split <;> rfl
@[simp] theorem State.asyncError_debug (s : State) (m : Mapped) (n : Nat) :
    (s.asyncError m n).dbg = s.dbg := by unfold State.asyncError; split <;> rfl
@[simp] theorem State.asyncError_osLock (s : State) (m : Mapped) (n : Nat) :
    (s.asyncError m n).osLock = s.osLock := by unfold State.asyncError; split <;> rfl
@[simp] theorem State.asyncError_trace (s : State) (m : Mapped) (n : Nat) :
    (s.asyncError m n).trace = s.trace := by unfold State.asyncError; split <;> rfl
@[simp] theorem State.asyncError_throttle (s : State) (m : Mapped) (n : Nat) :
    (s.asyncError m n).throttle = s.throttle := by unfold State.asyncError; split <;> rfl
@[simp] theorem State.asyncError_bus (s : State) (m : Mapped) (n : Nat) :
    (s.asyncError m n).bus = s.bus := by unfold State.asyncError; split <;> rfl
@[simp] theorem State.asyncError_events (s : State) (m : Mapped) (n : Nat) :
    (s.asyncError m n).events = s.events := by unfold State.asyncError; split <;> rfl
@[simp] theorem State.asyncError_inbox (s : State) (m : Mapped) (n : Nat) :
    (s.asyncError m n).inbox = s.inbox := by unfold State.asyncError; split <;> rfl
@[simp] theorem State.asyncError_exclBudget (s : State) (m : Mapped) (n : Nat) :
    (s.asyncError m n).exclBudget = s.exclBudget := by unfold State.asyncError; split <;> rfl
@[simp] theorem State.asyncError_draws (s : State) (m : Mapped) (n : Nat) :
    (s.asyncError m n).draws = s.draws := by unfold State.asyncError; split <;> rfl
@[simp] theorem State.asyncError_get (s : State) (m : Mapped) (n : Nat) (q : SysReg) :
    (s.asyncError m n).get q = s.get q := by simp [State.get]

/-! `loaded` -/

@[simp] theorem State.loaded_cfg (s : State) (m : Mapped) :
    (s.loaded m).cfg = s.cfg := by unfold State.loaded; split <;> rfl
@[simp] theorem State.loaded_x (s : State) (m : Mapped) :
    (s.loaded m).x = s.x := by unfold State.loaded; split <;> rfl
@[simp] theorem State.loaded_sp (s : State) (m : Mapped) :
    (s.loaded m).sp = s.sp := by unfold State.loaded; split <;> rfl
@[simp] theorem State.loaded_pc (s : State) (m : Mapped) :
    (s.loaded m).pc = s.pc := by unfold State.loaded; split <;> rfl
@[simp] theorem State.loaded_pstate (s : State) (m : Mapped) :
    (s.loaded m).pstate = s.pstate := by unfold State.loaded; split <;> rfl
@[simp] theorem State.loaded_vec (s : State) (m : Mapped) :
    (s.loaded m).vec = s.vec := by unfold State.loaded; split <;> rfl
@[simp] theorem State.loaded_sys (s : State) (m : Mapped) :
    (s.loaded m).sys = s.sys := by unfold State.loaded; split <;> rfl
@[simp] theorem State.loaded_unsynced (s : State) (m : Mapped) :
    (s.loaded m).unsynced = s.unsynced := by unfold State.loaded; split <;> rfl
@[simp] theorem State.loaded_mem (s : State) (m : Mapped) :
    (s.loaded m).mem = s.mem := by unfold State.loaded; split <;> rfl
@[simp] theorem State.loaded_tags (s : State) (m : Mapped) :
    (s.loaded m).tags = s.tags := by unfold State.loaded; split <;> rfl
@[simp] theorem State.loaded_poison (s : State) (m : Mapped) :
    (s.loaded m).poison = s.poison := by unfold State.loaded; split <;> rfl
@[simp] theorem State.loaded_monitor (s : State) (m : Mapped) :
    (s.loaded m).monitor = s.monitor := by unfold State.loaded; split <;> rfl
@[simp] theorem State.loaded_eventReg (s : State) (m : Mapped) :
    (s.loaded m).eventReg = s.eventReg := by unfold State.loaded; split <;> rfl
@[simp] theorem State.loaded_sleep (s : State) (m : Mapped) :
    (s.loaded m).sleep = s.sleep := by unfold State.loaded; split <;> rfl
@[simp] theorem State.loaded_power (s : State) (m : Mapped) :
    (s.loaded m).power = s.power := by unfold State.loaded; split <;> rfl
@[simp] theorem State.loaded_tlb (s : State) (m : Mapped) :
    (s.loaded m).tlb = s.tlb := by unfold State.loaded; split <;> rfl
@[simp] theorem State.loaded_returnStack (s : State) (m : Mapped) :
    (s.loaded m).returnStack = s.returnStack := by unfold State.loaded; split <;> rfl
@[simp] theorem State.loaded_predictor (s : State) (m : Mapped) :
    (s.loaded m).predictor = s.predictor := by unfold State.loaded; split <;> rfl
@[simp] theorem State.loaded_irq (s : State) (m : Mapped) :
    (s.loaded m).irq = s.irq := by unfold State.loaded; split <;> rfl
@[simp] theorem State.loaded_gic (s : State) (m : Mapped) :
    (s.loaded m).gic = s.gic := by unfold State.loaded; split <;> rfl
@[simp] theorem State.loaded_gicDisabled (s : State) (m : Mapped) :
    (s.loaded m).gicDisabled = s.gicDisabled := by unfold State.loaded; split <;> rfl
@[simp] theorem State.loaded_ram (s : State) (m : Mapped) :
    (s.loaded m).ram = s.ram := by unfold State.loaded; split <;> rfl
@[simp] theorem State.loaded_ras (s : State) (m : Mapped) :
    (s.loaded m).ras = s.ras := by unfold State.loaded; split <;> rfl
@[simp] theorem State.loaded_sysCount (s : State) (m : Mapped) :
    (s.loaded m).sysCount = s.sysCount := by unfold State.loaded; split <;> rfl
@[simp] theorem State.loaded_spe (s : State) (m : Mapped) :
    (s.loaded m).spe = s.spe := by unfold State.loaded; split <;> rfl
@[simp] theorem State.loaded_debug (s : State) (m : Mapped) :
    (s.loaded m).dbg = s.dbg := by unfold State.loaded; split <;> rfl
@[simp] theorem State.loaded_osLock (s : State) (m : Mapped) :
    (s.loaded m).osLock = s.osLock := by unfold State.loaded; split <;> rfl
@[simp] theorem State.loaded_trace (s : State) (m : Mapped) :
    (s.loaded m).trace = s.trace := by unfold State.loaded; split <;> rfl
@[simp] theorem State.loaded_throttle (s : State) (m : Mapped) :
    (s.loaded m).throttle = s.throttle := by unfold State.loaded; split <;> rfl
@[simp] theorem State.loaded_bus (s : State) (m : Mapped) :
    (s.loaded m).bus = s.bus := by unfold State.loaded; split <;> rfl
@[simp] theorem State.loaded_events (s : State) (m : Mapped) :
    (s.loaded m).events = s.events := by unfold State.loaded; split <;> rfl
@[simp] theorem State.loaded_inbox (s : State) (m : Mapped) :
    (s.loaded m).inbox = s.inbox := by unfold State.loaded; split <;> rfl
@[simp] theorem State.loaded_exclBudget (s : State) (m : Mapped) :
    (s.loaded m).exclBudget = s.exclBudget := by unfold State.loaded; split <;> rfl
@[simp] theorem State.loaded_draws (s : State) (m : Mapped) :
    (s.loaded m).draws = s.draws := by unfold State.loaded; split <;> rfl
@[simp] theorem State.loaded_get (s : State) (m : Mapped) (q : SysReg) :
    (s.loaded m).get q = s.get q := by simp [State.get]

/-! `storeMemory` -/

@[simp] theorem State.storeMemory_cfg (s : State) (m : Mapped) (bs : List Byte) :
    (s.storeMemory m bs).cfg = s.cfg := by unfold State.storeMemory; split <;> rfl
@[simp] theorem State.storeMemory_x (s : State) (m : Mapped) (bs : List Byte) :
    (s.storeMemory m bs).x = s.x := by unfold State.storeMemory; split <;> rfl
@[simp] theorem State.storeMemory_sp (s : State) (m : Mapped) (bs : List Byte) :
    (s.storeMemory m bs).sp = s.sp := by unfold State.storeMemory; split <;> rfl
@[simp] theorem State.storeMemory_pc (s : State) (m : Mapped) (bs : List Byte) :
    (s.storeMemory m bs).pc = s.pc := by unfold State.storeMemory; split <;> rfl
@[simp] theorem State.storeMemory_pstate (s : State) (m : Mapped) (bs : List Byte) :
    (s.storeMemory m bs).pstate = s.pstate := by unfold State.storeMemory; split <;> rfl
@[simp] theorem State.storeMemory_vec (s : State) (m : Mapped) (bs : List Byte) :
    (s.storeMemory m bs).vec = s.vec := by unfold State.storeMemory; split <;> rfl
@[simp] theorem State.storeMemory_sys (s : State) (m : Mapped) (bs : List Byte) :
    (s.storeMemory m bs).sys = s.sys := by unfold State.storeMemory; split <;> rfl
@[simp] theorem State.storeMemory_unsynced (s : State) (m : Mapped) (bs : List Byte) :
    (s.storeMemory m bs).unsynced = s.unsynced := by unfold State.storeMemory; split <;> rfl
@[simp] theorem State.storeMemory_tags (s : State) (m : Mapped) (bs : List Byte) :
    (s.storeMemory m bs).tags = s.tags := by unfold State.storeMemory; split <;> rfl
@[simp] theorem State.storeMemory_poison (s : State) (m : Mapped) (bs : List Byte) :
    (s.storeMemory m bs).poison = s.poison := by unfold State.storeMemory; split <;> rfl
@[simp] theorem State.storeMemory_monitor (s : State) (m : Mapped) (bs : List Byte) :
    (s.storeMemory m bs).monitor = s.monitor := by unfold State.storeMemory; split <;> rfl
@[simp] theorem State.storeMemory_eventReg (s : State) (m : Mapped) (bs : List Byte) :
    (s.storeMemory m bs).eventReg = s.eventReg := by unfold State.storeMemory; split <;> rfl
@[simp] theorem State.storeMemory_sleep (s : State) (m : Mapped) (bs : List Byte) :
    (s.storeMemory m bs).sleep = s.sleep := by unfold State.storeMemory; split <;> rfl
@[simp] theorem State.storeMemory_power (s : State) (m : Mapped) (bs : List Byte) :
    (s.storeMemory m bs).power = s.power := by unfold State.storeMemory; split <;> rfl
@[simp] theorem State.storeMemory_tlb (s : State) (m : Mapped) (bs : List Byte) :
    (s.storeMemory m bs).tlb = s.tlb := by unfold State.storeMemory; split <;> rfl
@[simp] theorem State.storeMemory_returnStack (s : State) (m : Mapped) (bs : List Byte) :
    (s.storeMemory m bs).returnStack = s.returnStack := by unfold State.storeMemory; split <;> rfl
@[simp] theorem State.storeMemory_predictor (s : State) (m : Mapped) (bs : List Byte) :
    (s.storeMemory m bs).predictor = s.predictor := by unfold State.storeMemory; split <;> rfl
@[simp] theorem State.storeMemory_irq (s : State) (m : Mapped) (bs : List Byte) :
    (s.storeMemory m bs).irq = s.irq := by unfold State.storeMemory; split <;> rfl
@[simp] theorem State.storeMemory_gic (s : State) (m : Mapped) (bs : List Byte) :
    (s.storeMemory m bs).gic = s.gic := by unfold State.storeMemory; split <;> rfl
@[simp] theorem State.storeMemory_gicDisabled (s : State) (m : Mapped) (bs : List Byte) :
    (s.storeMemory m bs).gicDisabled = s.gicDisabled := by unfold State.storeMemory; split <;> rfl
@[simp] theorem State.storeMemory_ram (s : State) (m : Mapped) (bs : List Byte) :
    (s.storeMemory m bs).ram = s.ram := by unfold State.storeMemory; split <;> rfl
@[simp] theorem State.storeMemory_ras (s : State) (m : Mapped) (bs : List Byte) :
    (s.storeMemory m bs).ras = s.ras := by unfold State.storeMemory; split <;> rfl
@[simp] theorem State.storeMemory_sysCount (s : State) (m : Mapped) (bs : List Byte) :
    (s.storeMemory m bs).sysCount = s.sysCount := by unfold State.storeMemory; split <;> rfl
@[simp] theorem State.storeMemory_spe (s : State) (m : Mapped) (bs : List Byte) :
    (s.storeMemory m bs).spe = s.spe := by unfold State.storeMemory; split <;> rfl
@[simp] theorem State.storeMemory_debug (s : State) (m : Mapped) (bs : List Byte) :
    (s.storeMemory m bs).dbg = s.dbg := by unfold State.storeMemory; split <;> rfl
@[simp] theorem State.storeMemory_osLock (s : State) (m : Mapped) (bs : List Byte) :
    (s.storeMemory m bs).osLock = s.osLock := by unfold State.storeMemory; split <;> rfl
@[simp] theorem State.storeMemory_trace (s : State) (m : Mapped) (bs : List Byte) :
    (s.storeMemory m bs).trace = s.trace := by unfold State.storeMemory; split <;> rfl
@[simp] theorem State.storeMemory_throttle (s : State) (m : Mapped) (bs : List Byte) :
    (s.storeMemory m bs).throttle = s.throttle := by unfold State.storeMemory; split <;> rfl
@[simp] theorem State.storeMemory_bus (s : State) (m : Mapped) (bs : List Byte) :
    (s.storeMemory m bs).bus = s.bus := by unfold State.storeMemory; split <;> rfl
@[simp] theorem State.storeMemory_events (s : State) (m : Mapped) (bs : List Byte) :
    (s.storeMemory m bs).events = s.events := by unfold State.storeMemory; split <;> rfl
@[simp] theorem State.storeMemory_inbox (s : State) (m : Mapped) (bs : List Byte) :
    (s.storeMemory m bs).inbox = s.inbox := by unfold State.storeMemory; split <;> rfl
@[simp] theorem State.storeMemory_exclBudget (s : State) (m : Mapped) (bs : List Byte) :
    (s.storeMemory m bs).exclBudget = s.exclBudget := by unfold State.storeMemory; split <;> rfl
@[simp] theorem State.storeMemory_draws (s : State) (m : Mapped) (bs : List Byte) :
    (s.storeMemory m bs).draws = s.draws := by unfold State.storeMemory; split <;> rfl
@[simp] theorem State.storeMemory_get (s : State) (m : Mapped) (bs : List Byte) (q : SysReg) :
    (s.storeMemory m bs).get q = s.get q := by simp [State.get]

/-! `utilityStore` -/

/-- A store to the utility bus changes the two MPMM registers of this core alone, and that their old
values may be seen for a while (R76). -/
theorem State.utilityStore_eq (s : State) (m : Mapped) (n : Nat) :
    ∃ sys un, s.utilityStore m n = { s with sys := sys, unsynced := un } := by
  have put (c : Bool) (t : State) (r : SysReg) (v : Word) :
      ∃ sys un, (if c then t.putThrough r none v else t) = { t with sys := sys, unsynced := un } := by
    cases c
    · exact ⟨t.sys, t.unsynced, rfl⟩
    · exact ⟨_, _, rfl⟩
  unfold State.utilityStore mpmmRegs
  rw [List.foldl_cons, List.foldl_cons, List.foldl_nil]
  obtain ⟨s1, u1, e1⟩ := put _ s .imp_cpuppmcr_el3 (s.drawWord .lostBits
    (10 + SysReg.imp_cpuppmcr_el3.idx.val))
  rw [e1]
  obtain ⟨s2, u2, e2⟩ := put _ { s with sys := s1, unsynced := u1 } .imp_cpumpmmcr_el3
    (s.drawWord .lostBits (10 + SysReg.imp_cpumpmmcr_el3.idx.val))
  exact ⟨s2, u2, e2⟩

/-- Every other system register reads as before. -/
theorem State.utilityStore_get (s : State) (m : Mapped) (n : Nat) {r : SysReg}
    (h1 : r ≠ .imp_cpuppmcr_el3) (h2 : r ≠ .imp_cpumpmmcr_el3) :
    (s.utilityStore m n).get r = s.get r := by
  have put (c : Bool) (t : State) (q : SysReg) (v : Word) (h : r ≠ q) :
      (if c then t.putThrough q none v else t).get r = t.get r := by
    cases c
    · rfl
    · exact (State.get_put t q r v).trans (if_neg h)
  unfold State.utilityStore mpmmRegs
  rw [List.foldl_cons, List.foldl_cons, List.foldl_nil, put _ _ _ _ h2, put _ _ _ _ h1]

@[simp] theorem State.utilityStore_cfg (s : State) (m : Mapped) (n : Nat) :
    (s.utilityStore m n).cfg = s.cfg := by
  obtain ⟨_, _, e⟩ := s.utilityStore_eq m n; rw [e]
@[simp] theorem State.utilityStore_x (s : State) (m : Mapped) (n : Nat) :
    (s.utilityStore m n).x = s.x := by
  obtain ⟨_, _, e⟩ := s.utilityStore_eq m n; rw [e]
@[simp] theorem State.utilityStore_sp (s : State) (m : Mapped) (n : Nat) :
    (s.utilityStore m n).sp = s.sp := by
  obtain ⟨_, _, e⟩ := s.utilityStore_eq m n; rw [e]
@[simp] theorem State.utilityStore_pc (s : State) (m : Mapped) (n : Nat) :
    (s.utilityStore m n).pc = s.pc := by
  obtain ⟨_, _, e⟩ := s.utilityStore_eq m n; rw [e]
@[simp] theorem State.utilityStore_pstate (s : State) (m : Mapped) (n : Nat) :
    (s.utilityStore m n).pstate = s.pstate := by
  obtain ⟨_, _, e⟩ := s.utilityStore_eq m n; rw [e]
@[simp] theorem State.utilityStore_vec (s : State) (m : Mapped) (n : Nat) :
    (s.utilityStore m n).vec = s.vec := by
  obtain ⟨_, _, e⟩ := s.utilityStore_eq m n; rw [e]
@[simp] theorem State.utilityStore_tags (s : State) (m : Mapped) (n : Nat) :
    (s.utilityStore m n).tags = s.tags := by
  obtain ⟨_, _, e⟩ := s.utilityStore_eq m n; rw [e]
@[simp] theorem State.utilityStore_poison (s : State) (m : Mapped) (n : Nat) :
    (s.utilityStore m n).poison = s.poison := by
  obtain ⟨_, _, e⟩ := s.utilityStore_eq m n; rw [e]
@[simp] theorem State.utilityStore_monitor (s : State) (m : Mapped) (n : Nat) :
    (s.utilityStore m n).monitor = s.monitor := by
  obtain ⟨_, _, e⟩ := s.utilityStore_eq m n; rw [e]
@[simp] theorem State.utilityStore_eventReg (s : State) (m : Mapped) (n : Nat) :
    (s.utilityStore m n).eventReg = s.eventReg := by
  obtain ⟨_, _, e⟩ := s.utilityStore_eq m n; rw [e]
@[simp] theorem State.utilityStore_sleep (s : State) (m : Mapped) (n : Nat) :
    (s.utilityStore m n).sleep = s.sleep := by
  obtain ⟨_, _, e⟩ := s.utilityStore_eq m n; rw [e]
@[simp] theorem State.utilityStore_power (s : State) (m : Mapped) (n : Nat) :
    (s.utilityStore m n).power = s.power := by
  obtain ⟨_, _, e⟩ := s.utilityStore_eq m n; rw [e]
@[simp] theorem State.utilityStore_tlb (s : State) (m : Mapped) (n : Nat) :
    (s.utilityStore m n).tlb = s.tlb := by
  obtain ⟨_, _, e⟩ := s.utilityStore_eq m n; rw [e]
@[simp] theorem State.utilityStore_returnStack (s : State) (m : Mapped) (n : Nat) :
    (s.utilityStore m n).returnStack = s.returnStack := by
  obtain ⟨_, _, e⟩ := s.utilityStore_eq m n; rw [e]
@[simp] theorem State.utilityStore_predictor (s : State) (m : Mapped) (n : Nat) :
    (s.utilityStore m n).predictor = s.predictor := by
  obtain ⟨_, _, e⟩ := s.utilityStore_eq m n; rw [e]
@[simp] theorem State.utilityStore_irq (s : State) (m : Mapped) (n : Nat) :
    (s.utilityStore m n).irq = s.irq := by
  obtain ⟨_, _, e⟩ := s.utilityStore_eq m n; rw [e]
@[simp] theorem State.utilityStore_gic (s : State) (m : Mapped) (n : Nat) :
    (s.utilityStore m n).gic = s.gic := by
  obtain ⟨_, _, e⟩ := s.utilityStore_eq m n; rw [e]
@[simp] theorem State.utilityStore_gicDisabled (s : State) (m : Mapped) (n : Nat) :
    (s.utilityStore m n).gicDisabled = s.gicDisabled := by
  obtain ⟨_, _, e⟩ := s.utilityStore_eq m n; rw [e]
@[simp] theorem State.utilityStore_ram (s : State) (m : Mapped) (n : Nat) :
    (s.utilityStore m n).ram = s.ram := by
  obtain ⟨_, _, e⟩ := s.utilityStore_eq m n; rw [e]
@[simp] theorem State.utilityStore_ras (s : State) (m : Mapped) (n : Nat) :
    (s.utilityStore m n).ras = s.ras := by
  obtain ⟨_, _, e⟩ := s.utilityStore_eq m n; rw [e]
@[simp] theorem State.utilityStore_sysCount (s : State) (m : Mapped) (n : Nat) :
    (s.utilityStore m n).sysCount = s.sysCount := by
  obtain ⟨_, _, e⟩ := s.utilityStore_eq m n; rw [e]
@[simp] theorem State.utilityStore_spe (s : State) (m : Mapped) (n : Nat) :
    (s.utilityStore m n).spe = s.spe := by
  obtain ⟨_, _, e⟩ := s.utilityStore_eq m n; rw [e]
@[simp] theorem State.utilityStore_debug (s : State) (m : Mapped) (n : Nat) :
    (s.utilityStore m n).dbg = s.dbg := by
  obtain ⟨_, _, e⟩ := s.utilityStore_eq m n; rw [e]
@[simp] theorem State.utilityStore_osLock (s : State) (m : Mapped) (n : Nat) :
    (s.utilityStore m n).osLock = s.osLock := by
  obtain ⟨_, _, e⟩ := s.utilityStore_eq m n; rw [e]
@[simp] theorem State.utilityStore_trace (s : State) (m : Mapped) (n : Nat) :
    (s.utilityStore m n).trace = s.trace := by
  obtain ⟨_, _, e⟩ := s.utilityStore_eq m n; rw [e]
@[simp] theorem State.utilityStore_throttle (s : State) (m : Mapped) (n : Nat) :
    (s.utilityStore m n).throttle = s.throttle := by
  obtain ⟨_, _, e⟩ := s.utilityStore_eq m n; rw [e]
@[simp] theorem State.utilityStore_bus (s : State) (m : Mapped) (n : Nat) :
    (s.utilityStore m n).bus = s.bus := by
  obtain ⟨_, _, e⟩ := s.utilityStore_eq m n; rw [e]
@[simp] theorem State.utilityStore_events (s : State) (m : Mapped) (n : Nat) :
    (s.utilityStore m n).events = s.events := by
  obtain ⟨_, _, e⟩ := s.utilityStore_eq m n; rw [e]
@[simp] theorem State.utilityStore_inbox (s : State) (m : Mapped) (n : Nat) :
    (s.utilityStore m n).inbox = s.inbox := by
  obtain ⟨_, _, e⟩ := s.utilityStore_eq m n; rw [e]
@[simp] theorem State.utilityStore_exclBudget (s : State) (m : Mapped) (n : Nat) :
    (s.utilityStore m n).exclBudget = s.exclBudget := by
  obtain ⟨_, _, e⟩ := s.utilityStore_eq m n; rw [e]
@[simp] theorem State.utilityStore_draws (s : State) (m : Mapped) (n : Nat) :
    (s.utilityStore m n).draws = s.draws := by
  obtain ⟨_, _, e⟩ := s.utilityStore_eq m n; rw [e]
@[simp] theorem State.utilityStore_mem (s : State) (m : Mapped) (n : Nat) :
    (s.utilityStore m n).mem = s.mem := by
  obtain ⟨_, _, e⟩ := s.utilityStore_eq m n; rw [e]
@[simp] theorem State.utilityStore_cache (s : State) (m : Mapped) (n : Nat) :
    (s.utilityStore m n).cache = s.cache := by
  obtain ⟨_, _, e⟩ := s.utilityStore_eq m n; rw [e]
@[simp] theorem State.utilityStore_mwb (s : State) (m : Mapped) (n : Nat) :
    (s.utilityStore m n).mwb = s.mwb := by
  obtain ⟨_, _, e⟩ := s.utilityStore_eq m n; rw [e]

/-! `store` -/

/-- A store off the utility bus is one to memory. -/
theorem State.store_memory (s : State) {m : Mapped} (h : s.onUtilityBus m = false)
    (bs : List Byte) : s.store m bs = s.storeMemory m bs := by
  rw [State.store, if_neg (by simp [h])]

/-- A store on the utility bus. -/
theorem State.store_utility (s : State) {m : Mapped} (h : s.onUtilityBus m = true)
    (bs : List Byte) : s.store m bs = s.utilityStore m bs.length := by
  rw [State.store, if_pos h]

@[simp] theorem State.store_cfg (s : State) (m : Mapped) (bs : List Byte) :
    (s.store m bs).cfg = s.cfg := by unfold State.store; split <;> simp
@[simp] theorem State.store_x (s : State) (m : Mapped) (bs : List Byte) :
    (s.store m bs).x = s.x := by unfold State.store; split <;> simp
@[simp] theorem State.store_sp (s : State) (m : Mapped) (bs : List Byte) :
    (s.store m bs).sp = s.sp := by unfold State.store; split <;> simp
@[simp] theorem State.store_pc (s : State) (m : Mapped) (bs : List Byte) :
    (s.store m bs).pc = s.pc := by unfold State.store; split <;> simp
@[simp] theorem State.store_pstate (s : State) (m : Mapped) (bs : List Byte) :
    (s.store m bs).pstate = s.pstate := by unfold State.store; split <;> simp
@[simp] theorem State.store_vec (s : State) (m : Mapped) (bs : List Byte) :
    (s.store m bs).vec = s.vec := by unfold State.store; split <;> simp
@[simp] theorem State.store_tags (s : State) (m : Mapped) (bs : List Byte) :
    (s.store m bs).tags = s.tags := by unfold State.store; split <;> simp
@[simp] theorem State.store_poison (s : State) (m : Mapped) (bs : List Byte) :
    (s.store m bs).poison = s.poison := by unfold State.store; split <;> simp
@[simp] theorem State.store_monitor (s : State) (m : Mapped) (bs : List Byte) :
    (s.store m bs).monitor = s.monitor := by unfold State.store; split <;> simp
@[simp] theorem State.store_eventReg (s : State) (m : Mapped) (bs : List Byte) :
    (s.store m bs).eventReg = s.eventReg := by unfold State.store; split <;> simp
@[simp] theorem State.store_sleep (s : State) (m : Mapped) (bs : List Byte) :
    (s.store m bs).sleep = s.sleep := by unfold State.store; split <;> simp
@[simp] theorem State.store_power (s : State) (m : Mapped) (bs : List Byte) :
    (s.store m bs).power = s.power := by unfold State.store; split <;> simp
@[simp] theorem State.store_tlb (s : State) (m : Mapped) (bs : List Byte) :
    (s.store m bs).tlb = s.tlb := by unfold State.store; split <;> simp
@[simp] theorem State.store_returnStack (s : State) (m : Mapped) (bs : List Byte) :
    (s.store m bs).returnStack = s.returnStack := by unfold State.store; split <;> simp
@[simp] theorem State.store_predictor (s : State) (m : Mapped) (bs : List Byte) :
    (s.store m bs).predictor = s.predictor := by unfold State.store; split <;> simp
@[simp] theorem State.store_irq (s : State) (m : Mapped) (bs : List Byte) :
    (s.store m bs).irq = s.irq := by unfold State.store; split <;> simp
@[simp] theorem State.store_gic (s : State) (m : Mapped) (bs : List Byte) :
    (s.store m bs).gic = s.gic := by unfold State.store; split <;> simp
@[simp] theorem State.store_gicDisabled (s : State) (m : Mapped) (bs : List Byte) :
    (s.store m bs).gicDisabled = s.gicDisabled := by unfold State.store; split <;> simp
@[simp] theorem State.store_ram (s : State) (m : Mapped) (bs : List Byte) :
    (s.store m bs).ram = s.ram := by unfold State.store; split <;> simp
@[simp] theorem State.store_ras (s : State) (m : Mapped) (bs : List Byte) :
    (s.store m bs).ras = s.ras := by unfold State.store; split <;> simp
@[simp] theorem State.store_sysCount (s : State) (m : Mapped) (bs : List Byte) :
    (s.store m bs).sysCount = s.sysCount := by unfold State.store; split <;> simp
@[simp] theorem State.store_spe (s : State) (m : Mapped) (bs : List Byte) :
    (s.store m bs).spe = s.spe := by unfold State.store; split <;> simp
@[simp] theorem State.store_debug (s : State) (m : Mapped) (bs : List Byte) :
    (s.store m bs).dbg = s.dbg := by unfold State.store; split <;> simp
@[simp] theorem State.store_osLock (s : State) (m : Mapped) (bs : List Byte) :
    (s.store m bs).osLock = s.osLock := by unfold State.store; split <;> simp
@[simp] theorem State.store_trace (s : State) (m : Mapped) (bs : List Byte) :
    (s.store m bs).trace = s.trace := by unfold State.store; split <;> simp
@[simp] theorem State.store_throttle (s : State) (m : Mapped) (bs : List Byte) :
    (s.store m bs).throttle = s.throttle := by unfold State.store; split <;> simp
@[simp] theorem State.store_bus (s : State) (m : Mapped) (bs : List Byte) :
    (s.store m bs).bus = s.bus := by unfold State.store; split <;> simp
@[simp] theorem State.store_events (s : State) (m : Mapped) (bs : List Byte) :
    (s.store m bs).events = s.events := by unfold State.store; split <;> simp
@[simp] theorem State.store_inbox (s : State) (m : Mapped) (bs : List Byte) :
    (s.store m bs).inbox = s.inbox := by unfold State.store; split <;> simp
@[simp] theorem State.store_exclBudget (s : State) (m : Mapped) (bs : List Byte) :
    (s.store m bs).exclBudget = s.exclBudget := by unfold State.store; split <;> simp
@[simp] theorem State.store_draws (s : State) (m : Mapped) (bs : List Byte) :
    (s.store m bs).draws = s.draws := by unfold State.store; split <;> simp

/-! `stepConsumed` -/

@[simp] theorem State.stepConsumed_cfg (s : State) :
    (s.stepConsumed).cfg = s.cfg := by unfold State.stepConsumed; split <;> rfl
@[simp] theorem State.stepConsumed_x (s : State) :
    (s.stepConsumed).x = s.x := by unfold State.stepConsumed; split <;> rfl
@[simp] theorem State.stepConsumed_sp (s : State) :
    (s.stepConsumed).sp = s.sp := by unfold State.stepConsumed; split <;> rfl
@[simp] theorem State.stepConsumed_pc (s : State) :
    (s.stepConsumed).pc = s.pc := by unfold State.stepConsumed; split <;> rfl
@[simp] theorem State.stepConsumed_vec (s : State) :
    (s.stepConsumed).vec = s.vec := by unfold State.stepConsumed; split <;> rfl
@[simp] theorem State.stepConsumed_sys (s : State) :
    (s.stepConsumed).sys = s.sys := by unfold State.stepConsumed; split <;> rfl
@[simp] theorem State.stepConsumed_unsynced (s : State) :
    (s.stepConsumed).unsynced = s.unsynced := by unfold State.stepConsumed; split <;> rfl
@[simp] theorem State.stepConsumed_mem (s : State) :
    (s.stepConsumed).mem = s.mem := by unfold State.stepConsumed; split <;> rfl
@[simp] theorem State.stepConsumed_tags (s : State) :
    (s.stepConsumed).tags = s.tags := by unfold State.stepConsumed; split <;> rfl
@[simp] theorem State.stepConsumed_poison (s : State) :
    (s.stepConsumed).poison = s.poison := by unfold State.stepConsumed; split <;> rfl
@[simp] theorem State.stepConsumed_monitor (s : State) :
    (s.stepConsumed).monitor = s.monitor := by unfold State.stepConsumed; split <;> rfl
@[simp] theorem State.stepConsumed_eventReg (s : State) :
    (s.stepConsumed).eventReg = s.eventReg := by unfold State.stepConsumed; split <;> rfl
@[simp] theorem State.stepConsumed_sleep (s : State) :
    (s.stepConsumed).sleep = s.sleep := by unfold State.stepConsumed; split <;> rfl
@[simp] theorem State.stepConsumed_power (s : State) :
    (s.stepConsumed).power = s.power := by unfold State.stepConsumed; split <;> rfl
@[simp] theorem State.stepConsumed_tlb (s : State) :
    (s.stepConsumed).tlb = s.tlb := by unfold State.stepConsumed; split <;> rfl
@[simp] theorem State.stepConsumed_cache (s : State) :
    (s.stepConsumed).cache = s.cache := by unfold State.stepConsumed; split <;> rfl
@[simp] theorem State.stepConsumed_mwb (s : State) :
    (s.stepConsumed).mwb = s.mwb := by unfold State.stepConsumed; split <;> rfl
@[simp] theorem State.stepConsumed_returnStack (s : State) :
    (s.stepConsumed).returnStack = s.returnStack := by unfold State.stepConsumed; split <;> rfl
@[simp] theorem State.stepConsumed_predictor (s : State) :
    (s.stepConsumed).predictor = s.predictor := by unfold State.stepConsumed; split <;> rfl
@[simp] theorem State.stepConsumed_irq (s : State) :
    (s.stepConsumed).irq = s.irq := by unfold State.stepConsumed; split <;> rfl
@[simp] theorem State.stepConsumed_gic (s : State) :
    (s.stepConsumed).gic = s.gic := by unfold State.stepConsumed; split <;> rfl
@[simp] theorem State.stepConsumed_gicDisabled (s : State) :
    (s.stepConsumed).gicDisabled = s.gicDisabled := by unfold State.stepConsumed; split <;> rfl
@[simp] theorem State.stepConsumed_ram (s : State) :
    (s.stepConsumed).ram = s.ram := by unfold State.stepConsumed; split <;> rfl
@[simp] theorem State.stepConsumed_ras (s : State) :
    (s.stepConsumed).ras = s.ras := by unfold State.stepConsumed; split <;> rfl
@[simp] theorem State.stepConsumed_sysCount (s : State) :
    (s.stepConsumed).sysCount = s.sysCount := by unfold State.stepConsumed; split <;> rfl
@[simp] theorem State.stepConsumed_spe (s : State) :
    (s.stepConsumed).spe = s.spe := by unfold State.stepConsumed; split <;> rfl
@[simp] theorem State.stepConsumed_debug (s : State) :
    (s.stepConsumed).dbg = s.dbg := by unfold State.stepConsumed; split <;> rfl
@[simp] theorem State.stepConsumed_osLock (s : State) :
    (s.stepConsumed).osLock = s.osLock := by unfold State.stepConsumed; split <;> rfl
@[simp] theorem State.stepConsumed_trace (s : State) :
    (s.stepConsumed).trace = s.trace := by unfold State.stepConsumed; split <;> rfl
@[simp] theorem State.stepConsumed_throttle (s : State) :
    (s.stepConsumed).throttle = s.throttle := by unfold State.stepConsumed; split <;> rfl
@[simp] theorem State.stepConsumed_bus (s : State) :
    (s.stepConsumed).bus = s.bus := by unfold State.stepConsumed; split <;> rfl
@[simp] theorem State.stepConsumed_events (s : State) :
    (s.stepConsumed).events = s.events := by unfold State.stepConsumed; split <;> rfl
@[simp] theorem State.stepConsumed_inbox (s : State) :
    (s.stepConsumed).inbox = s.inbox := by unfold State.stepConsumed; split <;> rfl
@[simp] theorem State.stepConsumed_exclBudget (s : State) :
    (s.stepConsumed).exclBudget = s.exclBudget := by unfold State.stepConsumed; split <;> rfl
@[simp] theorem State.stepConsumed_draws (s : State) :
    (s.stepConsumed).draws = s.draws := by unfold State.stepConsumed; split <;> rfl
@[simp] theorem State.stepConsumed_get (s : State) (q : SysReg) :
    (s.stepConsumed).get q = s.get q := by simp [State.get]

/-! The fields an update changes -/

@[simp] theorem State.put_sys (s : State) (r : SysReg) (v : Word) :
    (s.put r v).sys = s.sys.set r.idx.val v := rfl
@[simp] theorem State.pushReturn_returnStack (s : State) (a : Word) :
    (s.pushReturn a).returnStack = ⟨a, .a64⟩ :: s.returnStack := rfl
@[simp] theorem State.popReturn_returnStack (s : State) :
    s.popReturn.returnStack = s.returnStack.drop 1 := rfl
@[simp] theorem State.contextSync_unsynced (s : State) : s.contextSync.unsynced = [] := rfl
@[simp] theorem State.contextSync_ram (s : State) :
    s.contextSync.ram = { s.ram with synced := s.ram.written } := rfl
@[simp] theorem State.contextSync_cache (s : State) :
    s.contextSync.cache = { s.cache with old := syncOld s.cache.old } := rfl
@[simp] theorem State.openMonitor_monitor (s : State) : s.openMonitor.monitor = .opened := rfl
@[simp] theorem State.record_events (s : State) (e : MemEvent) :
    (s.record e).events = s.events ++ [e] := rfl
@[simp] theorem State.tick_draws (s : State) : s.tick.draws = s.draws + 1 := rfl
@[simp] theorem State.writeMem_mem (s : State) (k : Nat) (bs : List Byte) :
    (s.writeMem k bs).mem = Memory.writeBytes s.mem k bs := rfl
@[simp] theorem State.pendWith_irq (s : State) (i : BitVec 25) :
    (s.pendWith i).irq = { s.irq with serror := some (s.irq.serror.getD i) } := rfl
@[simp] theorem State.pendSError_irq (s : State) :
    s.pendSError.irq = { s.irq with serror := some (s.irq.serror.getD s.serrorIss) } := rfl
@[simp] theorem State.consumed_irq (s : State) :
    s.consumed.irq = { s.irq with serror := none, due := false } := rfl
@[simp] theorem State.enterDebug_debug (s : State) :
    s.enterDebug.dbg = { s.dbg with halted := true, request := false } := rfl

/-- A store to memory writes its bytes at the key of its mapping, whatever the memory type. -/
@[simp] theorem State.storeMemory_mem (s : State) (m : Mapped) (bs : List Byte) :
    (s.storeMemory m bs).mem = Memory.writeBytes s.mem (mappedKey m) bs := rfl

/-! General registers (R43) -/

/-- Reading a general register after a write: 31 reads as zero and discards writes. -/
theorem State.xr_setX (s : State) (r q : Reg) (v : Word) :
    (s.setX r v).xr q = if q = r ∧ r ≠ 31 then v else s.xr q := by
  unfold State.setX State.xr
  by_cases hr : r.toNat < 31
  · by_cases hq : q.toNat < 31
    · by_cases h : q = r
      · subst h
        have n31 : ¬q = 31#5 := by rintro rfl; simp at hq
        simp [hr, n31]
      · have : r.toNat ≠ q.toNat := fun e => h (BitVec.eq_of_toNat_eq e.symm)
        simp [hr, hq, h, this]
    · have h : q ≠ r := by rintro rfl; exact hq hr
      simp [hq, h]
  · have h31 : r = 31 := BitVec.eq_of_toNat_eq (by have := r.isLt; simp; omega)
    simp [h31]

@[simp] theorem State.setX_zr (s : State) (v : Word) : s.setX 31 v = s := by
  unfold State.setX; simp

@[simp] theorem State.xr_zr (s : State) : s.xr 31 = 0 := by
  unfold State.xr; simp

/-! Control registers -/

/-- A control register is as stored unless it was written since the last synchronisation. -/
theorem State.ctl_of_olds (s : State) (r : SysReg) (h : s.olds r = []) : s.ctl r = s.get r := by
  simp [State.ctl, h, State.choose]

/-- What a choice gives is one of its candidates. -/
theorem State.choose_mem {α : Type} (s : State) (k : FreeKind) (i : Nat) (a : α) (l : List α) :
    s.choose k i a l ∈ a :: l := by
  unfold State.choose
  split
  · exact List.mem_cons_self
  · rename_i b l
    have h : s.drawNat k i % (l.length + 1 + 1) < (a :: b :: l).length := Nat.mod_lt _ (by simp)
    rw [List.length_cons, List.getD_eq_getElem _ _ h]
    exact List.getElem_mem h

/-- A control register is seen with its stored value or with one it had before (R620). -/
theorem State.ctl_mem (s : State) (r : SysReg) : s.ctl r ∈ s.get r :: s.olds r :=
  s.choose_mem _ _ _ _

/-- A register read under one of its names has its stored value, or one it had before a write
through another name (R308). -/
theorem State.seenAs_mem (s : State) (name r : SysReg) : s.seenAs name r ∈ s.get r ::
    otherViews (writesBits r) name (s.get r) (s.unsynced.filter (fun u => u.reg == r)) :=
  s.choose_mem _ _ _ _

/-- Without a write since the last synchronisation every name reads the stored value. -/
theorem State.seenAs_of_olds (s : State) (name r : SysReg) (h : s.olds r = []) :
    s.seenAs name r = s.get r := by
  have : s.unsynced.filter (fun u => u.reg == r) = [] := by
    simpa [State.olds] using h
  simp [State.seenAs, this, otherViews, State.choose]

/-- After a context synchronisation event a control register is as stored. -/
@[simp] theorem State.contextSync_ctl (s : State) (r : SysReg) :
    s.contextSync.ctl r = s.get r := by
  rw [State.ctl_of_olds] <;> simp [State.olds]

end Sys2Proof.Machine
end

