-- ==== Sys2Proof/Laws/Ops.lean ====
section
/-! SUPPORT. What each shared operation of Machine/Ops.lean can do, said once: advancing, branching,
taking an exception, returning from one. -/

namespace Sys2Proof.Machine

/-! Advancing and branching -/

/-- An instruction that advances answers its effect in the advanced state, where `pc + 4` exists. -/
theorem State.advanceWith_eq (s : State) (f : State → State) (h : s.pc.toNat + 4 < 2 ^ 64) :
    s.advanceWith f =
      .next (f { s with pc := s.pc + 4, pstate := { s.pstate with btype := 0 } }) := by
  rw [State.advanceWith, if_pos h]

/-- If an advance answers a next state, it is its effect in the advanced state. -/
theorem State.advanceWith_next {s t : State} {f : State → State} (h : s.advanceWith f = .next t) :
    s.pc.toNat + 4 < 2 ^ 64 ∧
      t = f { s with pc := s.pc + 4, pstate := { s.pstate with btype := 0 } } := by
  unfold State.advanceWith at h
  split at h
  · exact ⟨‹_›, by simpa using h.symm⟩
  · cases h

@[simp] theorem State.branchTo_pc (s : State) (a : Word) (b : BitVec 2) :
    (s.branchTo a b).pc = a := rfl
@[simp] theorem State.branchTo_pstate (s : State) (a : Word) (b : BitVec 2) :
    (s.branchTo a b).pstate = { s.pstate with btype := b } := rfl
@[simp] theorem State.branchTo_x (s : State) (a : Word) (b : BitVec 2) :
    (s.branchTo a b).x = s.x := by simp [State.branchTo]
@[simp] theorem State.branchTo_sp (s : State) (a : Word) (b : BitVec 2) :
    (s.branchTo a b).sp = s.sp := by simp [State.branchTo]
@[simp] theorem State.branchTo_vec (s : State) (a : Word) (b : BitVec 2) :
    (s.branchTo a b).vec = s.vec := by simp [State.branchTo]
@[simp] theorem State.branchTo_sys (s : State) (a : Word) (b : BitVec 2) :
    (s.branchTo a b).sys = s.sys := by simp [State.branchTo]
@[simp] theorem State.branchTo_mem (s : State) (a : Word) (b : BitVec 2) :
    (s.branchTo a b).mem = s.mem := by simp [State.branchTo]
@[simp] theorem State.branchTo_cache (s : State) (a : Word) (b : BitVec 2) :
    (s.branchTo a b).cache = s.cache := by simp [State.branchTo]
@[simp] theorem State.branchTo_monitor (s : State) (a : Word) (b : BitVec 2) :
    (s.branchTo a b).monitor = s.monitor := by simp [State.branchTo]
@[simp] theorem State.branchTo_returnStack (s : State) (a : Word) (b : BitVec 2) :
    (s.branchTo a b).returnStack = s.returnStack := by simp [State.branchTo]
@[simp] theorem State.branchTo_predictor (s : State) (a : Word) (b : BitVec 2) :
    (s.branchTo a b).predictor = s.learn a b := rfl

/-- A call answers the link register written, the return address pushed and the branch. -/
theorem State.call_eq (s : State) (a : Word) (b : BitVec 2) (h : s.pc.toNat + 4 < 2 ^ 64) :
    s.call a b =
      .next (((s.setX 30 (s.pc + 4)).pushReturn (s.pc + 4)).branchTo a b) := by
  rw [State.call, if_pos h]

/-- General registers that stand in one vector read alike. -/
theorem State.xr_congr {s t : State} (h : t.x = s.x) (r : Reg) : t.xr r = s.xr r := by
  simp [State.xr, h]

/-- System registers that stand in one vector read alike. -/
theorem State.get_congr {s t : State} (h : t.sys = s.sys) (r : SysReg) : t.get r = s.get r := by
  simp [State.get, h]

/-- A control register depends on the system registers, the unsynchronised writes and the draw. -/
theorem State.ctl_congr {s t : State} (h : t.sys = s.sys) (hu : t.unsynced = s.unsynced)
    (hd : t.draws = s.draws) (r : SysReg) : t.ctl r = s.ctl r := by
  have ho : t.olds r = s.olds r := by simp [State.olds, hu]
  unfold State.ctl State.choose
  rw [ho, State.get_congr h]
  simp [State.drawNat, hd]

/-! Taking an exception (R464) -/

@[simp] theorem State.saveException_x (s : State) (e : Entry) : (s.saveException e).x = s.x := by
  unfold State.saveException; cases e.esr <;> cases e.far <;> cases e.hpfar <;> rfl
@[simp] theorem State.saveException_sp (s : State) (e : Entry) :
    (s.saveException e).sp = s.sp := by
  unfold State.saveException; cases e.esr <;> cases e.far <;> cases e.hpfar <;> rfl
@[simp] theorem State.saveException_vec (s : State) (e : Entry) :
    (s.saveException e).vec = s.vec := by
  unfold State.saveException; cases e.esr <;> cases e.far <;> cases e.hpfar <;> rfl
@[simp] theorem State.saveException_mem (s : State) (e : Entry) :
    (s.saveException e).mem = s.mem := by
  unfold State.saveException; cases e.esr <;> cases e.far <;> cases e.hpfar <;> rfl
@[simp] theorem State.saveException_cache (s : State) (e : Entry) :
    (s.saveException e).cache = s.cache := by
  unfold State.saveException; cases e.esr <;> cases e.far <;> cases e.hpfar <;> rfl
@[simp] theorem State.saveException_ram (s : State) (e : Entry) :
    (s.saveException e).ram = s.ram := by
  unfold State.saveException; cases e.esr <;> cases e.far <;> cases e.hpfar <;> rfl
@[simp] theorem State.saveException_irq (s : State) (e : Entry) :
    (s.saveException e).irq = s.irq := by
  unfold State.saveException; cases e.esr <;> cases e.far <;> cases e.hpfar <;> rfl
@[simp] theorem State.saveException_eventReg (s : State) (e : Entry) :
    (s.saveException e).eventReg = s.eventReg := by
  unfold State.saveException; cases e.esr <;> cases e.far <;> cases e.hpfar <;> rfl
@[simp] theorem State.saveException_returnStack (s : State) (e : Entry) :
    (s.saveException e).returnStack = s.returnStack := by
  unfold State.saveException; cases e.esr <;> cases e.far <;> cases e.hpfar <;> rfl
@[simp] theorem State.saveException_power (s : State) (e : Entry) :
    (s.saveException e).power = s.power := by
  unfold State.saveException; cases e.esr <;> cases e.far <;> cases e.hpfar <;> rfl
@[simp] theorem State.saveException_cfg (s : State) (e : Entry) :
    (s.saveException e).cfg = s.cfg := by
  unfold State.saveException; cases e.esr <;> cases e.far <;> cases e.hpfar <;> rfl

@[simp] theorem State.saveException_ras (s : State) (e : Entry) :
    (s.saveException e).ras = s.ras := by
  unfold State.saveException; cases e.esr <;> cases e.far <;> cases e.hpfar <;> rfl

@[simp] theorem State.takeException_x (s : State) (e : Entry) :
    (s.takeException e).x = s.x := by simp [State.takeException]
@[simp] theorem State.takeException_sp (s : State) (e : Entry) :
    (s.takeException e).sp = s.sp := by simp [State.takeException]
@[simp] theorem State.takeException_vec (s : State) (e : Entry) :
    (s.takeException e).vec = s.vec := by simp [State.takeException]
@[simp] theorem State.takeException_mem (s : State) (e : Entry) :
    (s.takeException e).mem = s.mem := by simp [State.takeException]
@[simp] theorem State.takeException_cache (s : State) (e : Entry) :
    (s.takeException e).cache = { s.cache with old := syncOld s.cache.old } := by
  simp [State.takeException]
@[simp] theorem State.takeException_ras (s : State) (e : Entry) :
    (s.takeException e).ras = s.ras := by simp [State.takeException]
@[simp] theorem State.takeException_serror (s : State) (e : Entry) :
    (s.takeException e).irq.serror = s.irq.serror := by simp [State.takeException]
@[simp] theorem State.takeException_eventReg (s : State) (e : Entry) :
    (s.takeException e).eventReg = s.eventReg := by simp [State.takeException]
@[simp] theorem State.takeException_returnStack (s : State) (e : Entry) :
    (s.takeException e).returnStack = s.returnStack := by simp [State.takeException]
@[simp] theorem State.takeException_ram (s : State) (e : Entry) :
    (s.takeException e).ram = { s.ram with synced := s.ram.written } := by simp [State.takeException]
@[simp] theorem State.takeException_pc (s : State) (e : Entry) :
    (s.takeException e).pc = s.vectorAddress e.target e.column := rfl
@[simp] theorem State.takeException_pstate (s : State) (e : Entry) :
    (s.takeException e).pstate = s.handlerPState e.target := rfl
@[simp] theorem State.takeException_unsynced (s : State) (e : Entry) :
    (s.takeException e).unsynced = [] := rfl
@[simp] theorem State.takeException_sleep (s : State) (e : Entry) :
    (s.takeException e).sleep = { s.sleep with lowPower := .running } := rfl
@[simp] theorem State.takeException_sys (s : State) (e : Entry) :
    (s.takeException e).sys = (s.saveException e).sys := by simp [State.takeException]

/-- The monitor after an exception entry is as before or open (R377). -/
theorem State.takeException_monitor (s : State) (e : Entry) :
    (s.takeException e).monitor = s.monitor ∨ (s.takeException e).monitor = .opened := by
  show s.monitorAfterEntry = _ ∨ s.monitorAfterEntry = _
  unfold State.monitorAfterEntry
  split
  · exact .inr rfl
  · split
    · exact .inr rfl
    · exact .inl rfl

/-- Any value of a system register after an exception entry: the saved ones, or as before. -/
theorem State.takeException_get (s : State) (e : Entry) (q : SysReg) :
    (s.takeException e).get q =
      if e.hpfar.isSome = true ∧ q = .hpfar_el2 then e.hpfar.getD 0
      else if e.far ≠ .keep ∧ q = farOf e.target then
        (match e.far with
          | .write va => va
          | _ => s.drawWord .farUnknown 0)
      else if e.esr.isSome = true ∧ q = esrOf e.target then e.esr.getD 0
      else if q = elrOf e.target then e.ret
      else if q = spsrOf e.target then packPState s.pstate
      else s.get q := by
  have h : (s.takeException e).get q = (s.saveException e).get q :=
    State.get_congr (State.takeException_sys s e) q
  rw [h]
  unfold State.saveException
  cases e.esr <;> cases e.far <;> cases e.hpfar <;> simp [State.get_put]

/-- The exception registers of two kinds are never one register. -/
theorem excRegs_ne (t : EL) :
    esrOf t ≠ spsrOf t ∧ esrOf t ≠ elrOf t ∧ elrOf t ≠ spsrOf t ∧ farOf t ≠ esrOf t ∧
      farOf t ≠ elrOf t ∧ farOf t ≠ spsrOf t ∧ farOf t ≠ .hpfar_el2 ∧ esrOf t ≠ .hpfar_el2 ∧
      elrOf t ≠ .hpfar_el2 ∧ spsrOf t ≠ .hpfar_el2 := by
  revert t; decide

/-! Returning from an exception (R467) -/

@[simp] theorem State.exceptionReturn_x (s : State) (a : Word) :
    (s.exceptionReturn a).x = s.x := by simp [State.exceptionReturn]
@[simp] theorem State.exceptionReturn_sp (s : State) (a : Word) :
    (s.exceptionReturn a).sp = s.sp := by simp [State.exceptionReturn]
@[simp] theorem State.exceptionReturn_vec (s : State) (a : Word) :
    (s.exceptionReturn a).vec = s.vec := by simp [State.exceptionReturn]
@[simp] theorem State.exceptionReturn_sys (s : State) (a : Word) :
    (s.exceptionReturn a).sys = s.sys := by simp [State.exceptionReturn]
@[simp] theorem State.exceptionReturn_mem (s : State) (a : Word) :
    (s.exceptionReturn a).mem = s.mem := by simp [State.exceptionReturn]
@[simp] theorem State.exceptionReturn_cache (s : State) (a : Word) :
    (s.exceptionReturn a).cache = { s.cache with old := syncOld s.cache.old } := by
  simp [State.exceptionReturn]
@[simp] theorem State.exceptionReturn_returnStack (s : State) (a : Word) :
    (s.exceptionReturn a).returnStack = s.returnStack := by simp [State.exceptionReturn]
@[simp] theorem State.exceptionReturn_unsynced (s : State) (a : Word) :
    (s.exceptionReturn a).unsynced = [] := rfl
@[simp] theorem State.exceptionReturn_pc (s : State) (a : Word) :
    (s.exceptionReturn a).pc = a := rfl
@[simp] theorem State.exceptionReturn_monitor (s : State) (a : Word) :
    (s.exceptionReturn a).monitor = .opened := rfl
@[simp] theorem State.exceptionReturn_pstate (s : State) (a : Word) :
    (s.exceptionReturn a).pstate = s.returnPState (s.get (spsrOf s.el)) := rfl

end Sys2Proof.Machine
end

