-- ==== Sys2Proof/Laws/Mmu.lean ====
section
/-! SUPPORT. What a translation can do, said once: it changes the TLBs, the walk's PBHA value, the
caches that a walk reads through, and, where hardware updates a descriptor, memory. -/

namespace Sys2Proof.Machine

/-- The state after a translation: what it may differ in. -/
def State.afterTranslation (s : State) (tlb : Tlbs) (bus : BusState) (mem : List Host.Cell)
    (cache : Caches) : State :=
  { s with tlb := tlb, bus := bus, mem := mem, cache := cache }

/-- The walk that `Config.walk` answers for an address found a page. -/
def State.walkFinds (s : State) (va : Word) (k : AccessKind) (w : Walk) : Prop :=
  Config.walk (s.walkInput va k) = .found w ∨ Config.walk (s.walkInput va k) = .overContiguous w

/-- A fill changes the TLBs alone. -/
theorem State.fill_ok {s s1 : State} {k : AccessKind} {va : Word} {e : TlbEntry} {m : Mapped}
    (h : s.fill k va e = .ok s1 m) : ∃ tlb, s1 = { s with tlb := tlb } := by
  have hf (t : State) : ∃ tlb, t.fillL1 k va e = { t with tlb := tlb } := by
    cases k <;> exact ⟨_, rfl⟩
  have h2 : ∃ tlb, s.fillL2 k va e = { s with tlb := tlb } := by
    unfold State.fillL2
    split
    · exact ⟨_, rfl⟩
    · exact ⟨s.tlb, rfl⟩
  unfold State.fill at h
  simp only [Xlate.ok.injEq] at h
  obtain ⟨t2, e2⟩ := h2
  obtain ⟨t1, e1⟩ := hf { s with tlb := t2 }
  rw [e2, e1] at h
  exact ⟨t1, h.1.symm⟩

/-- An address below 2^40 has no tag to set aside. -/
theorem State.untagged_low (s : State) {va : Word} (k : AccessKind) (h : va.toNat < 2 ^ 40) :
    s.untagged va k = va := by
  unfold State.untagged
  split
  · have hm : (va.setWidth 56).msb = false := by
      rw [BitVec.msb_eq_decide, BitVec.toNat_setWidth]
      simp only [decide_eq_false_iff_not]
      omega
    rw [BitVec.signExtend_eq_setWidth_of_msb_false hm]
    refine BitVec.eq_of_toNat_eq ?_
    rw [BitVec.toNat_setWidth, BitVec.toNat_setWidth]
    omega
  · rfl

/-- The caches after the reads of a walk. -/
theorem State.walkDone_walked (s : State) (k : AccessKind) (w : Walk) :
    CachesWalked s.cache (s.walkDone k w).cache := by
  unfold State.walkDone
  dsimp only
  split
  · exact s.walkCaches_walked _ _ _
  · exact .refl _

/-- The caches after the update of a descriptor. -/
theorem State.updateDescriptor_walked (s : State) (u : DescUpdate) :
    CachesWalked s.cache (s.updateDescriptor u).cache := by
  unfold State.updateDescriptor
  dsimp only
  split
  · exact ⟨fun h => (h.dirty (d := s.cache.dirtied s.mem (memKey u.pa u.ns)) _ _
      (Nat.le_of_eq (length_blockBytes _ _)) (.inr rfl) (.inr rfl)).of_eq rfl rfl, rfl, rfl, rfl, rfl⟩
  · exact ⟨fun h => (h.through (memKey u.pa u.ns) (bytesOf 8 (u.value.setWidth 128))).of_eq rfl rfl,
      rfl, rfl, rfl, rfl⟩

/-- Memory with the descriptors that updates give. -/
def writeUpdates (m : List Host.Cell) (us : List DescUpdate) : List Host.Cell :=
  us.foldl (fun m u => Memory.writeBytes m (memKey u.pa u.ns) (bytesOf 8 (u.value.setWidth 128))) m

/-- What descriptor updates leave: memory with the descriptors, and lines marked as stored to. -/
theorem State.updates_eq (us : List DescUpdate) : ∀ s : State,
    ∃ cache, us.foldl State.updateDescriptor s =
      { s with mem := writeUpdates s.mem us, cache := cache } ∧ CachesWalked s.cache cache := by
  induction us with
  | nil => exact fun s => ⟨s.cache, rfl, .refl _⟩
  | cons u us ih =>
    intro s
    obtain ⟨c, e, h⟩ := ih (s.updateDescriptor u)
    exact ⟨c, by rw [List.foldl_cons, e]; rfl, (s.updateDescriptor_walked u).trans h⟩

/-- Updates write memory in its canonical form. -/
theorem writeUpdates_wf (us : List DescUpdate) : ∀ {m : List Host.Cell}, Memory.wf m →
    Memory.wf (writeUpdates m us) := by
  induction us with
  | nil => exact fun h => h
  | cons u us ih => exact fun h => ih (Memory.wf_writeBytes _ h)

/-- A byte outside the updated descriptors reads as before. -/
theorem writeUpdates_read (us : List DescUpdate) (a : Nat)
    (ha : ∀ u ∈ us, a < memKey u.pa u.ns ∨ memKey u.pa u.ns + 8 ≤ a) :
    ∀ {m : List Host.Cell}, Memory.wf m →
      Memory.read (writeUpdates m us) a = Memory.read m a := by
  induction us with
  | nil => intro _ _; rfl
  | cons u us ih =>
    intro m hm
    have h8 : (bytesOf 8 (u.value.setWidth 128)).length = 8 := rfl
    have := ih (fun v hv => ha v (List.mem_cons_of_mem _ hv)) (Memory.wf_writeBytes
      (a := memKey u.pa u.ns) (bytesOf 8 (u.value.setWidth 128)) hm)
    refine Eq.trans this (Memory.read_writeBytes_of_out hm ?_)
    rw [h8]
    exact ha u List.mem_cons_self

/-- The updates that hardware makes are among those that the walk asks for. -/
theorem State.updatesOf_sub {s : State} {w : Walk} {u : DescUpdate} (h : u ∈ s.updatesOf w) :
    u ∈ w.updates := (List.mem_filter.1 h).1

/-- A walk that succeeds: the state it leaves, and the descriptor updates it has made. -/
theorem State.walked_ok {s s1 : State} {va : Word} {k : AccessKind} {w : Walk}
    {honour ahead : Bool} {m : Mapped} (h : s.walked va k w honour ahead = .ok s1 m) :
    ∃ tlb bus cache, s1 = s.afterTranslation tlb bus (writeUpdates s.mem (s.updatesOf w)) cache ∧
      CachesWalked s.cache cache ∧ (ahead = true → s.updatesOf w = []) := by
  unfold State.walked at h
  dsimp only at h
  split at h
  · cases h
  split at h
  · cases h
  split at h
  · cases h
  split at h
  · cases h
  rename_i ha
  obtain ⟨tlb, rfl⟩ := State.fill_ok h
  obtain ⟨c, e, hc⟩ := State.updates_eq (s.updatesOf w) (s.walkDone k w)
  rw [e]
  refine ⟨tlb, (s.walkDone k w).bus, c, rfl, (s.walkDone_walked k w).trans hc, fun h => ?_⟩
  simpa [h] using ha

/-- A walk that fails has at most read its descriptors. -/
theorem State.walked_fault {s s1 : State} {va : Word} {k : AccessKind} {w : Walk}
    {honour ahead : Bool} {f : MmuFault} (h : s.walked va k w honour ahead = .fault s1 f) :
    s1 = s.walkDone k w := by
  unfold State.walked at h
  dsimp only at h
  repeat' split at h
  all_goals first | cases h; rfl | cases h

/-- A lookup that succeeds changes nothing, or the TLBs alone, or is a walk. -/
theorem State.lookup_ok {s s1 : State} {va : Word} {k : AccessKind} {ahead : Bool} {m : Mapped}
    (h : s.lookup va k ahead = .ok s1 m) :
    (∃ tlb, s1 = { s with tlb := tlb }) ∨ s.walkFor va k ahead = .ok s1 m := by
  unfold State.lookup at h
  repeat' split at h
  all_goals first
    | exact .inr h
    | (simp only [Xlate.ok.injEq] at h; exact .inl ⟨s.tlb, h.1.symm⟩)
    | cases h
  rename_i e _
  refine .inl ?_
  cases k <;> exact ⟨_, rfl⟩

/-- A translation that succeeds: the state it leaves; memory changes by the descriptor updates of
its walk alone, and not at all for a prefetch or a speculative access (R221). -/
theorem State.translateFor_ok {s s1 : State} {va : Word} {k : AccessKind} {ahead : Bool}
    {m : Mapped} (h : s.translateFor va k ahead = .ok s1 m) :
    ∃ tlb bus mem cache, s1 = s.afterTranslation tlb bus mem cache ∧
      CachesWalked s.cache cache ∧
      (mem = s.mem ∨ ahead = false ∧ ∃ w, s.walkFinds va k w ∧
        mem = writeUpdates s.mem (s.updatesOf w)) := by
  have same (tlb : Tlbs) : ∃ tlb' bus mem cache,
      { s with tlb := tlb } = s.afterTranslation tlb' bus mem cache ∧
      CachesWalked s.cache cache ∧
      (mem = s.mem ∨ ahead = false ∧ ∃ w, s.walkFinds va k w ∧
        mem = writeUpdates s.mem (s.updatesOf w)) :=
    ⟨tlb, s.bus, s.mem, s.cache, rfl, .refl _, .inl rfl⟩
  unfold State.translateFor at h
  split at h
  · split at h
    · cases h
    · rcases State.lookup_ok h with ⟨tlb, rfl⟩ | h
      · exact same tlb
      · unfold State.walkFor at h
        repeat' split at h
        all_goals first | cases h | skip
        all_goals
          rename_i w hw
          obtain ⟨tlb, bus, cache, rfl, hc, hm⟩ := State.walked_ok h
          refine ⟨tlb, bus, _, cache, rfl, hc, ?_⟩
          cases ahead
        · exact .inr ⟨rfl, w, .inl hw, rfl⟩
        · left; rw [hm rfl]; rfl
        · exact .inr ⟨rfl, w, .inr hw, rfl⟩
        · left; rw [hm rfl]; rfl
  · split at h
    · simp only [Xlate.ok.injEq] at h
      rw [← h.1]; exact same s.tlb
    · cases h

/-- A translation of an instruction's access that succeeds. -/
theorem State.translate_ok {s s1 : State} {va : Word} {k : AccessKind} {m : Mapped}
    (h : s.translate va k = .ok s1 m) :
    ∃ tlb bus mem cache, s1 = s.afterTranslation tlb bus mem cache ∧
      CachesWalked s.cache cache ∧
      (mem = s.mem ∨ ∃ w, s.walkFinds va k w ∧ mem = writeUpdates s.mem (s.updatesOf w)) := by
  obtain ⟨tlb, bus, mem, cache, e, hc, hm⟩ := State.translateFor_ok h
  exact ⟨tlb, bus, mem, cache, e, hc, hm.imp_right And.right⟩

/-- A translation that is made ahead leaves memory as it was (R221). -/
theorem State.translateAhead_ok {s s1 : State} {va : Word} {k : AccessKind} {m : Mapped}
    (h : s.translateAhead va k = .ok s1 m) :
    ∃ tlb bus cache, s1 = s.afterTranslation tlb bus s.mem cache ∧ CachesWalked s.cache cache := by
  obtain ⟨tlb, bus, mem, cache, e, hc, rfl | ⟨h, -⟩⟩ := State.translateFor_ok h
  · exact ⟨tlb, bus, cache, e, hc⟩
  · cases h

/-- A translation that fails leaves the state as it was, but for what the walk has read. -/
theorem State.translateFor_fault {s s1 : State} {va : Word} {k : AccessKind} {ahead : Bool}
    {f : MmuFault} (h : s.translateFor va k ahead = .fault s1 f) :
    ∃ bus cache, s1 = s.afterTranslation s.tlb bus s.mem cache ∧
      CachesWalked s.cache cache := by
  have same : ∃ bus cache, s = s.afterTranslation s.tlb bus s.mem cache ∧
      CachesWalked s.cache cache := ⟨s.bus, s.cache, rfl, .refl _⟩
  unfold State.translateFor State.lookup State.walkFor at h
  repeat' split at h
  all_goals first
    | (cases h; exact same)
    | (cases h; exact ⟨_, _, rfl, .refl _⟩)
    | cases h
    | (rw [State.walked_fault h]
       exact ⟨_, _, rfl, s.walkDone_walked k _⟩)

theorem State.translate_fault {s s1 : State} {va : Word} {k : AccessKind} {f : MmuFault}
    (h : s.translate va k = .fault s1 f) :
    ∃ bus cache, s1 = s.afterTranslation s.tlb bus s.mem cache ∧
      CachesWalked s.cache cache := State.translateFor_fault h

/-- A translation keeps the canonical form of memory. -/
theorem State.translate_wf {s s1 : State} {va : Word} {k : AccessKind} {m : Mapped}
    (h : s.translate va k = .ok s1 m) (hm : Memory.wf s.mem) : Memory.wf s1.mem := by
  obtain ⟨tlb, bus, mem, cache, rfl, -, rfl | ⟨w, -, rfl⟩⟩ := State.translate_ok h
  · exact hm
  · exact writeUpdates_wf _ hm

/-- A translation keeps the caches exclusive (R227). -/
theorem State.translate_exclusive {s s1 : State} {va : Word} {k : AccessKind} {m : Mapped}
    (h : s.translate va k = .ok s1 m) (hc : ExclusiveCaches s.cache) : ExclusiveCaches s1.cache := by
  obtain ⟨tlb, bus, mem, cache, rfl, he, -⟩ := State.translate_ok h
  exact he.exclusive hc

/-- What depends on the control registers, the level and the draw is the same after a translation.
-/
theorem State.afterTranslation_ctl (s : State) (tlb : Tlbs) (bus : BusState)
    (mem : List Host.Cell) (cache : Caches) (r : SysReg) :
    (s.afterTranslation tlb bus mem cache).ctl r = s.ctl r := rfl

end Sys2Proof.Machine
end

