-- ==== Sys2Proof/Laws/Access.lean ====
section
/-! SUPPORT. When a data access reaches memory, said once, and what is the same before and after its
translation. -/

namespace Sys2Proof.Machine

/-- The checks before translation pass for a good address. -/
theorem AddressOk.preCheck {s : State} {r : Req} (h : AddressOk s r) : s.preCheck r = none := by
  unfold State.preCheck
  have h1 : (r.spBase && s.spMisaligned) = false := by
    cases hb : r.spBase
    · rfl
    · simp [h.spAligned hb]
  have h2 : (r.aligned && r.va.toNat % r.size != 0) = false := by
    cases hb : r.aligned
    · rfl
    · simp [h.aligned hb]
  simp only [h1, h2, h.littleEndian]
  rfl

/-- A granted access is translated and permitted. -/
theorem Granted.xlate {s s1 : State} {r : Req} {k : AccessKind} {m : Mapped}
    (h : Granted s r k s1 m) : s.xlate r k = .ok s1 m := by
  unfold State.xlate
  rw [h.translated]
  dsimp only
  rw [h.permitted]

/-- Where nothing hinders it, an access goes on with its PBHA value shown. -/
theorem Unhindered.afterXlate {s : State} {r : Req} {m : Mapped} (h : Unhindered s r m) :
    s.afterXlate r m = .ok (s.showPbha r.va m) m := by
  unfold State.afterXlate
  have h1 : s.aliasRefused m = false := by
    unfold State.aliasRefused
    rcases h.neutral with h | h <;> simp [h]
  simp only [h1, h.untagged, h.unwatched]
  rfl

/-- A load or store that passes every check reaches its memory. -/
theorem State.access_ok {s s1 : State} {r : Req} {k : AccessKind} {m : Mapped}
    (ha : AddressOk s r) (hg : Granted s r k s1 m) (hu : Unhindered s1 r m) :
    s.access r k = .ok (s1.showPbha r.va m) m := by
  unfold State.access
  rw [ha.preCheck]
  dsimp only
  rw [hg.xlate]
  exact hu.afterXlate

/-- An atomic access that passes every check, for reading then for writing. -/
theorem State.accessBoth_ok {s s1 s2 : State} {r : Req} {m1 m : Mapped} (ha : AddressOk s r)
    (hr : Granted s r .read s1 m1) (hw : Granted s1 r .write s2 m) (hu : Unhindered s2 r m) :
    s.accessBoth r = .ok (s2.showPbha r.va m) m := by
  unfold State.accessBoth
  rw [ha.preCheck]
  dsimp only
  rw [hr.xlate]
  dsimp only
  rw [hw.xlate]
  exact hu.afterXlate

/-- What a translation that succeeds leaves as it was. -/
structure SameCore (s t : State) : Prop where
  cfg : t.cfg = s.cfg
  x : t.x = s.x
  sp : t.sp = s.sp
  pc : t.pc = s.pc
  pstate : t.pstate = s.pstate
  vec : t.vec = s.vec
  sys : t.sys = s.sys
  unsynced : t.unsynced = s.unsynced
  monitor : t.monitor = s.monitor
  eventReg : t.eventReg = s.eventReg
  sleep : t.sleep = s.sleep
  power : t.power = s.power
  irq : t.irq = s.irq
  ras : t.ras = s.ras
  osLock : t.osLock = s.osLock
  events : t.events = s.events
  draws : t.draws = s.draws
  trace : t.trace = s.trace
  dbg : t.dbg = s.dbg
  gic : t.gic = s.gic
  gicDisabled : t.gicDisabled = s.gicDisabled
  tags : t.tags = s.tags
  poison : t.poison = s.poison
  exclBudget : t.exclBudget = s.exclBudget
  bad : t.cache.bad = s.cache.bad

theorem State.translate_same {s s1 : State} {va : Word} {k : AccessKind} {m : Mapped}
    (h : s.translate va k = .ok s1 m) : SameCore s s1 := by
  obtain ⟨tlb, bus, mem, cache, rfl, hc, -⟩ := State.translate_ok h
  constructor <;> first | rfl | exact hc.bad

theorem SameCore.trans {s t u : State} (h : SameCore s t) (g : SameCore t u) : SameCore s u where
  cfg := g.cfg.trans h.cfg
  x := g.x.trans h.x
  sp := g.sp.trans h.sp
  pc := g.pc.trans h.pc
  pstate := g.pstate.trans h.pstate
  vec := g.vec.trans h.vec
  sys := g.sys.trans h.sys
  unsynced := g.unsynced.trans h.unsynced
  monitor := g.monitor.trans h.monitor
  eventReg := g.eventReg.trans h.eventReg
  sleep := g.sleep.trans h.sleep
  power := g.power.trans h.power
  irq := g.irq.trans h.irq
  ras := g.ras.trans h.ras
  osLock := g.osLock.trans h.osLock
  events := g.events.trans h.events
  draws := g.draws.trans h.draws
  trace := g.trace.trans h.trace
  dbg := g.dbg.trans h.dbg
  gic := g.gic.trans h.gic
  gicDisabled := g.gicDisabled.trans h.gicDisabled
  tags := g.tags.trans h.tags
  poison := g.poison.trans h.poison
  exclBudget := g.exclBudget.trans h.exclBudget
  bad := g.bad.trans h.bad

/-- A control register is the same where the system registers, the unsynchronised writes and the
draw are. -/
theorem SameCore.ctl {s t : State} (h : SameCore s t) (r : SysReg) : t.ctl r = s.ctl r :=
  State.ctl_congr h.sys h.unsynced h.draws r

theorem SameCore.ctl_eq {s t : State} (h : SameCore s t) : t.ctl = s.ctl := funext h.ctl

theorem SameCore.el {s t : State} (h : SameCore s t) : t.el = s.el := congrArg PState.el h.pstate

theorem SameCore.scr {s t : State} (h : SameCore s t) : t.scr = s.scr := h.ctl _

theorem SameCore.hcr {s t : State} (h : SameCore s t) : t.hcr = s.hcr := h.ctl _

theorem SameCore.nsBelow {s t : State} (h : SameCore s t) : t.nsBelow = s.nsBelow := by
  unfold State.nsBelow
  rw [h.scr]

theorem SameCore.el2Enabled {s t : State} (h : SameCore s t) : t.el2Enabled = s.el2Enabled := by
  unfold State.el2Enabled
  rw [h.nsBelow, h.scr]

theorem SameCore.tge {s t : State} (h : SameCore s t) : t.tge = s.tge := by
  unfold State.tge
  rw [h.el2Enabled, h.hcr]

theorem SameCore.e2h {s t : State} (h : SameCore s t) : t.e2h = s.e2h := by
  unfold State.e2h
  rw [h.el2Enabled, h.hcr]

theorem SameCore.hostEl0 {s t : State} (h : SameCore s t) : t.hostEl0 = s.hostEl0 := by
  unfold State.hostEl0
  rw [h.el, h.e2h, h.tge]

theorem SameCore.regimeEl {s t : State} (h : SameCore s t) : t.regimeEl = s.regimeEl := by
  unfold State.regimeEl
  rw [h.hostEl0, h.el]

theorem SameCore.sctlr {s t : State} (h : SameCore s t) : t.sctlr = s.sctlr := by
  unfold State.sctlr
  rw [h.regimeEl, h.ctl]

theorem SameCore.syncTarget {s t : State} (h : SameCore s t) : t.syncTarget = s.syncTarget := by
  unfold State.syncTarget
  rw [h.el, h.tge]

theorem SameCore.debugTarget {s t : State} (h : SameCore s t) : t.debugTarget = s.debugTarget := by
  unfold State.debugTarget
  rw [h.el2Enabled, h.ctl, h.tge]

theorem SameCore.hcrBelow {s t : State} (h : SameCore s t) (i : Nat) : t.hcrBelow i = s.hcrBelow i := by
  unfold State.hcrBelow
  rw [h.el2Enabled, h.el, h.hcr]

theorem SameCore.secure {s t : State} (h : SameCore s t) : t.secure = s.secure := by
  unfold State.secure
  rw [h.el, h.nsBelow]

theorem SameCore.isCached {s t : State} (h : SameCore s t) (m : Mapped) :
    t.isCached m = s.isCached m := by
  simp [State.isCached, State.cachesOn, h.sctlr]

theorem SameCore.hasMonitor {s t : State} (h : SameCore s t) (m : Mapped) :
    t.hasMonitor m = s.hasMonitor m := by
  simp [State.hasMonitor, h.isCached, h.cfg]

theorem SameCore.onUtilityBus {s t : State} (h : SameCore s t) (m : Mapped) :
    t.onUtilityBus m = s.onUtilityBus m := by
  unfold State.onUtilityBus
  rw [h.cfg]

theorem SameCore.errorIn {s t : State} (h : SameCore s t) (key n : Nat) :
    t.errorIn key n = s.errorIn key n := by
  simp only [State.errorIn, h.cfg, h.poison, h.bad]

theorem SameCore.busError {s t : State} (h : SameCore s t) (m : Mapped) (n : Nat) :
    t.busError m n = s.busError m n := h.errorIn _ _

theorem SameCore.cleanPair {s t : State} (h : SameCore s t) (m : Mapped) (n : Nat) :
    t.cleanPair m n = s.cleanPair m n := by
  unfold State.cleanPair
  rw [h.events]

theorem SameCore.storePasses {s t : State} (h : SameCore s t) (m : Mapped) (n : Nat) :
    t.storePasses m n = s.storePasses m n := by
  unfold State.storePasses State.monitorHolds State.drawBool
  rw [h.cleanPair, h.monitor, h.draws, h.exclBudget]

theorem SameCore.budgetAfter {s t : State} (h : SameCore s t) (m : Mapped) (n : Nat) :
    t.budgetAfter m n = s.budgetAfter m n := by
  unfold State.budgetAfter State.drawNat
  rw [h.storePasses, h.cleanPair, h.draws, h.exclBudget]

theorem SameCore.tagFault {s t : State} (h : SameCore s t) (r : Req) (m : Mapped) :
    t.tagFault r m = s.tagFault r m := by
  simp only [State.tagFault, State.tagChecks, State.tagAt, h.tags, h.pstate, h.el, h.sctlr]

theorem SameCore.debugEnabled {s t : State} (h : SameCore s t) : t.debugEnabled = s.debugEnabled := by
  simp only [State.debugEnabled, h.osLock, h.el, h.debugTarget, h.ctl, h.pstate]

theorem SameCore.haltingAllowed {s t : State} (h : SameCore s t) :
    t.haltingAllowed = s.haltingAllowed := by
  simp only [State.haltingAllowed, h.dbg, h.cfg, h.osLock]

theorem SameCore.watchpointHit {s t : State} (h : SameCore s t) (r : Req) :
    t.watchpointHit r = s.watchpointHit r := by
  simp only [State.watchpointHit, State.monitorDebug, h.debugEnabled, h.ctl, h.haltingAllowed,
    State.watchedByte, State.debugInput, State.brps, State.wrps, h.el, h.secure]

/-- A synchronous exception of the instruction at `pc` leaves what `TookSync` says (R464). -/
theorem TookSync.of_entry (s : State) (el : EL) (esr : Word) (far : FarUpdate)
    (hp : Option Word) :
    TookSync s (s.takeException ⟨el, .sync, s.pc, some esr, far, hp⟩) el esr := by
  obtain ⟨h1, h2, h3, h4, h5, h6, h7, h8, h9, h10⟩ := excRegs_ne el
  exact
    { status := by simp [State.takeException_get, h10, h6.symm, h1.symm, h3.symm]
      ret := by simp [State.takeException_get, h9, h5.symm, h2.symm]
      syndrome := by simp [State.takeException_get, h8, h4.symm]
      vector := rfl
      handler := rfl
      general := by simp
      pointers := by simp
      vectors := by simp
      memory := by simp }

/-- The fault address after an exception that writes it. -/
theorem takeException_far (s : State) (el : EL) (c : VectorColumn) (ret : Word)
    (esr : Option Word) (va : Word) (hp : Option Word) :
    (s.takeException ⟨el, c, ret, esr, .write va, hp⟩).get (farOf el) = va := by
  obtain ⟨-, -, -, -, -, -, h7, -⟩ := excRegs_ne el
  simp [State.takeException_get, h7]

/-- What an access shows on the bus changes nothing else. -/
theorem State.showPbha_same (s : State) (va : Word) (m : Mapped) : SameCore s (s.showPbha va m) := by
  constructor <;> rfl

/-- Advancing keeps everything but the program counter and `BTYPE`. -/
theorem KeepsRegs.of_same {s s1 : State} (h : SameCore s s1) :
    KeepsRegs s { s1 with pc := s1.pc + 4, pstate := { s1.pstate with btype := 0 } } [] 0 where
  general q _ := State.xr_congr h.x q
  pointers := h.sp
  pstate := by rw [h.pstate]
  vectors := h.vec
  special := h.sys

/-- The value of the low bytes of memory is its own low bytes. -/
theorem lowBytes_ofBytes (bs : List Byte) : lowBytes bs.length (ofBytes bs) = ofBytes bs := by
  apply BitVec.eq_of_getLsbD_eq
  intro i hi
  suffices h : ∀ i, 8 * bs.length ≤ i → (ofBytes bs).getLsbD i = false by
    simp only [lowBytes, BitVec.getLsbD_setWidth]
    by_cases h8 : i < 8 * bs.length
    · simp [h8, hi]
    · simp [h8, h i (by omega)]
  clear hi i
  induction bs with
  | nil => intro i _; simp [ofBytes]
  | cons b bs ih =>
    intro i hi
    rw [List.length_cons] at hi
    simp only [ofBytes, BitVec.getLsbD_or, BitVec.getLsbD_setWidth, BitVec.getLsbD_shiftLeft]
    rw [ih (i - 8) (by omega), BitVec.getLsbD_of_ge b i (by omega)]
    simp

theorem Memory.lowBytes_readLE (m : List Host.Cell) (a n : Nat) :
    lowBytes n (Memory.readLE m a n) = Memory.readLE m a n := by
  have := lowBytes_ofBytes (Memory.readBytes m a n)
  rwa [Memory.length_readBytes] at this

/-- The `i`-th byte of the little-endian bytes of a value. -/
theorem getElem_bytesOf (n : Nat) : ∀ (v : Data) (i : Nat), i < n →
    (bytesOf n v)[i]? = some ((v >>> (8 * i)).setWidth 8) := by
  induction n with
  | zero => intro v i h; omega
  | succ n ih =>
    intro v i h
    cases i with
    | zero => simp [bytesOf]
    | succ i =>
      rw [bytesOf, List.getElem?_cons_succ, ih _ _ (by omega), ← BitVec.shiftRight_add,
        show 8 + 8 * i = 8 * (i + 1) by omega]

end Sys2Proof.Machine
end

