-- ==== Sys2Proof/Laws/Exclusive.lean ====
section
/-! SUPPORT. What the loads and stores of exclusive and atomic accesses do, said once: the state a
store leaves, the bytes it stores, the values a load gives. -/

namespace Sys2Proof.Machine

/-! Loads and stores -/

/-- What a store leaves may differ in memory, the caches, the write buffer, the system registers
and the writes of them that are not yet synchronised. -/
theorem State.store_eq (s : State) (m : Mapped) (bytes : List Byte) :
    ∃ mem c w sys un, s.store m bytes =
      { s with mem := mem, cache := c, mwb := w, sys := sys, unsynced := un } := by
  unfold State.store
  split
  · obtain ⟨sys, un, e⟩ := s.utilityStore_eq m bytes.length
    exact ⟨s.mem, s.cache, s.mwb, sys, un, e⟩
  · exact ⟨_, _, _, s.sys, s.unsynced, rfl⟩

/-- Off the utility bus a store leaves the bytes in memory, and no system register changes. -/
theorem State.storeMemory_eq (s : State) (m : Mapped) (bytes : List Byte) :
    ∃ c w, s.storeMemory m bytes =
      { s with mem := Memory.writeBytes s.mem (mappedKey m) bytes, cache := c, mwb := w } :=
  ⟨_, _, rfl⟩

/-- What a store of data does to memory and the system registers: off the utility bus it writes its
bytes, on it only the MPMM registers may change (R76). -/
structure Stores (s t : State) (m : Mapped) (n : Nat) (v : Data) : Prop where
  memory : s.onUtilityBus m = false →
    t.mem = Memory.writeLE s.mem (mappedKey m) n v ∧ t.sys = s.sys
  bus : s.onUtilityBus m = true → t.mem = s.mem ∧
    ∀ r, r ≠ .imp_cpuppmcr_el3 → r ≠ .imp_cpumpmmcr_el3 → t.get r = s.get r

theorem State.storeData_stores (s : State) (m : Mapped) (n : Nat) (v : Data) :
    Stores s (s.storeData m n v) m n v where
  memory h := by
    unfold State.storeData
    rw [s.store_memory h]
    exact ⟨rfl, by simp⟩
  bus h := by
    unfold State.storeData
    rw [s.store_utility h]
    exact ⟨by simp, fun r h1 h2 => s.utilityStore_get _ _ h1 h2⟩

/-- Only memory, the system registers and the place of the bus matter. -/
theorem Stores.congr {s t u v : State} {m : Mapped} {n : Nat} {d : Data} (h : Stores s t m n d)
    (hc : u.cfg = s.cfg) (hm : u.mem = s.mem) (hs : u.sys = s.sys) (tm : v.mem = t.mem)
    (ts : v.sys = t.sys) : Stores u v m n d := by
  have hb : u.onUtilityBus m = s.onUtilityBus m := by unfold State.onUtilityBus; rw [hc]
  refine ⟨fun h1 => ?_, fun h1 => ?_⟩
  · rw [hb] at h1
    rw [hm, hs, tm, ts]
    exact h.memory h1
  · rw [hb] at h1
    refine ⟨by rw [hm, tm]; exact (h.bus h1).1, fun r h2 h3 => ?_⟩
    rw [State.get_congr hs, State.get_congr ts]
    exact (h.bus h1).2 r h2 h3

/-- What an instruction that stores the low `n` bytes of `v` at a mapping leaves, beside the
registers `dst`: off the utility bus the bytes in the memory that its translation left, on it no
byte of memory changed. -/
structure StoredAt (s u t : State) (dst : List Reg) (m : Mapped) (n : Nat) (v : Data) : Prop where
  memory : s.onUtilityBus m = false →
    KeepsRegs s t dst 0 ∧ t.mem = Memory.writeLE u.mem (mappedKey m) n v
  bus : s.onUtilityBus m = true → KeepsRegsOnBus s t dst 0 ∧ t.mem = u.mem

/-- A store in the advanced state. -/
theorem StoredAt.of_stores {s u v t : State} {m : Mapped} {n : Nat} {d : Data}
    (kp : KeepsRegs s v [] 0) (hb : v.onUtilityBus m = s.onUtilityBus m) (hm : v.mem = u.mem)
    (h : Stores v t m n d) (tx : t.x = v.x) (tsp : t.sp = v.sp) (tp : t.pstate = v.pstate)
    (tv : t.vec = v.vec) : StoredAt s u t [] m n d where
  memory h1 := by
    obtain ⟨h2, h3⟩ := h.memory (hb.trans h1)
    exact ⟨⟨fun q hq => (State.xr_congr tx q).trans (kp.general q hq), tsp.trans kp.pointers,
      tp.trans kp.pstate, tv.trans kp.vectors, h3.trans kp.special⟩, by rw [h2, hm]⟩
  bus h1 := by
    obtain ⟨h2, h3⟩ := h.bus (hb.trans h1)
    exact ⟨⟨fun q hq => (State.xr_congr tx q).trans (kp.general q hq), tsp.trans kp.pointers,
      tp.trans kp.pstate, tv.trans kp.vectors,
      fun r a b => (h3 r a b).trans (State.get_congr kp.special r)⟩, by rw [h2, hm]⟩

/-- A register write after the store. -/
theorem StoredAt.setX {s u t : State} {dst : List Reg} {m : Mapped} {n : Nat} {d : Data}
    (h : StoredAt s u t dst m n d) (r : Reg) (w : Word) :
    StoredAt s u (t.setX r w) (r :: dst) m n d := by
  obtain ⟨x, e⟩ : ∃ x, t.setX r w = { t with x := x } := by
    unfold State.setX; split; exact ⟨_, rfl⟩; exact ⟨t.x, rfl⟩
  have hx : ∀ q, q ∉ r :: dst → (t.setX r w).xr q = t.xr q := by
    intro q hq
    rw [State.xr_setX, if_neg (by simp at hq; simp [hq.1])]
  refine ⟨fun h1 => ?_, fun h1 => ?_⟩
  · obtain ⟨k, km⟩ := h.memory h1
    exact ⟨⟨fun q hq => (hx q hq).trans (k.general q (by simp at hq; simp [hq.2])),
      by rw [e]; exact k.pointers, by rw [e]; exact k.pstate, by rw [e]; exact k.vectors,
      by rw [e]; exact k.special⟩, by rw [e]; exact km⟩
  · obtain ⟨k, km⟩ := h.bus h1
    exact ⟨⟨fun q hq => (hx q hq).trans (k.general q (by simp at hq; simp [hq.2])),
      by rw [e]; exact k.pointers, by rw [e]; exact k.pstate, by rw [e]; exact k.vectors,
      by rw [e]; exact k.special⟩, by rw [e]; exact km⟩

/-- A load looks up the caches and changes nothing else. -/
theorem State.loaded_eq (s : State) (m : Mapped) :
    ∃ c w, s.loaded m = { s with cache := c, mwb := w } := by
  unfold State.loaded
  dsimp only
  split
  · exact ⟨_, _, rfl⟩
  · exact ⟨s.cache, s.mwb, rfl⟩

/-- An error answered asynchronously pends an SError at most. -/
theorem State.asyncError_eq (s : State) (m : Mapped) (n : Nat) :
    ∃ i, s.asyncError m n = { s with irq := i } := by
  unfold State.asyncError
  split
  · exact ⟨_, rfl⟩
  · exact ⟨s.irq, rfl⟩

/-- With no error of the bus, none is pended. -/
theorem State.asyncError_none {s : State} {m : Mapped} {n : Nat} (h : s.busError m n = false) :
    s.asyncError m n = s := by
  unfold State.asyncError
  rw [if_neg (by simp [h])]

/-- A store of this core leaves its monitor as it was, or opens it. -/
theorem State.ownStore_eq (s : State) (pa : BitVec 40) (ns : Bool) :
    ∃ o, s.ownStore pa ns = { s with monitor := o } ∧ (o = s.monitor ∨ o = .opened) := by
  unfold State.ownStore
  split
  · rename_i h
    refine ⟨_, rfl, ?_⟩
    split
    · exact .inr rfl
    · left
      simpa [State.monitorHolds] using Eq.symm (by simpa [State.monitorHolds] using h)
  · exact ⟨s.monitor, rfl, .inl rfl⟩

/-- The read of an atomic changes the write buffer alone. -/
theorem State.lineRead_eq (s : State) (m : Mapped) : ∃ w, s.lineRead m = { s with mwb := w } :=
  ⟨_, rfl⟩

/-- What the store of an atomic leaves. -/
theorem State.atomicStore_eq (s : State) (m : Mapped) (n : Nat) (v : Data) :
    (∃ mem c w i o sys un, s.atomicStore m n v =
        { s with mem := mem, cache := c, mwb := w, irq := i, monitor := o, sys := sys,
                 unsynced := un } ∧
      (o = s.monitor ∨ o = .opened)) ∧ Stores s (s.atomicStore m n v) m n v := by
  obtain ⟨i, h2⟩ := s.asyncError_eq m n
  obtain ⟨b, h5⟩ := (s.asyncError m n).lineRead_eq m
  obtain ⟨mem, c, w, sys, un, h1⟩ := ((s.asyncError m n).lineRead m).store_eq m (bytesOf n v)
  obtain ⟨o, h3, h4⟩ :=
    (((s.asyncError m n).lineRead m).storeData m n v).ownStore_eq m.pa m.ns
  have hs := ((s.asyncError m n).lineRead m).storeData_stores m n v
  refine ⟨⟨mem, c, w, i, o, sys, un, ?_, ?_⟩, hs.congr ?_ ?_ ?_ ?_ ?_⟩
  · unfold State.atomicStore
    rw [h3, State.storeData, h1, h5, h2]
  · rw [State.storeData, h1, h5, h2] at h4
    exact h4
  · rw [h5, h2]
  · rw [h5, h2]
  · rw [h5, h2]
  · unfold State.atomicStore
    rw [h3]
  · unfold State.atomicStore
    rw [h3]

/-- A register written with data changes the general registers alone. -/
theorem State.setXData_eq (s : State) (r : Reg) (n : Nat) (v : Data) :
    ∃ x, s.setXData r n v = { s with x := x } := by
  unfold State.setXData State.setX
  split
  · exact ⟨_, rfl⟩
  · exact ⟨s.x, rfl⟩

/-- What a register reads as after it or another one is written with data. -/
theorem State.xr_setXData (s : State) (r q : Reg) (n : Nat) (v : Data) :
    (s.setXData r n v).xr q =
      if q = r then valueOf r ((lowBytes n v).setWidth 64) else s.xr q := by
  unfold State.setXData valueOf
  rw [State.xr_setX]
  by_cases h : q = r
  · subst h
    by_cases h31 : q = 31
    · subst h31
      rw [if_neg (by simp), if_pos rfl, if_pos rfl]
      rfl
    · rw [if_pos ⟨rfl, h31⟩, if_pos rfl, if_neg h31]
  · rw [if_neg (by simp [h]), if_neg h]

/-! What a load returns -/

/-- What a load of the utility bus returns depends on its place, the system registers and those of
their writes that are not synchronised, and the draw. -/
theorem State.utilityLoad_congr {s t : State} (h3 : t.draws = s.draws) (h4 : t.cfg = s.cfg)
    (h5 : t.sys = s.sys) (h6 : t.unsynced = s.unsynced) (m : Mapped) (n : Nat) :
    t.utilityLoad m n = s.utilityLoad m n := by
  have hg : t.ctl = s.ctl := funext fun r => by
    unfold State.ctl State.olds State.choose State.drawNat
    rw [State.get_congr h5 r, h6, h3]
  have hb : t.utilityByte m.ns = s.utilityByte m.ns := by
    funext a
    unfold State.utilityByte State.drawWord
    rw [h3, h4, hg]
  unfold State.utilityLoad
  rw [hb]

/-- What a load returns depends on memory, the older bytes, the draw, and on the utility bus on its
place and the system registers. -/
theorem State.loadData_congr {s t : State} (h1 : t.mem = s.mem) (h2 : t.cache.older = s.cache.older)
    (h3 : t.draws = s.draws) (h4 : t.cfg = s.cfg) (h5 : t.sys = s.sys)
    (h6 : t.unsynced = s.unsynced) (m : Mapped) (n : Nat) : t.loadData m n = s.loadData m n := by
  unfold State.loadData State.memoryData State.olderData State.choose State.drawNat
    State.onUtilityBus
  rw [State.utilityLoad_congr h3 h4 h5 h6, h1, h2, h3, h4]

/-- A load of shareable memory returns what memory holds (R168). -/
theorem State.loadData_shareable (s : State) {m : Mapped} (n : Nat)
    (h : m.attr.shareable = true) (hb : s.onUtilityBus m = false) :
    s.loadData m n = Memory.readLE s.mem (mappedKey m) n := by
  unfold State.loadData State.memoryData State.olderData
  simp [h, hb, State.choose]

/-- A load from memory returns the bytes at its key of memory as it is, or as it was. -/
theorem State.memoryData_reads (s : State) (m : Mapped) (n : Nat) :
    ∃ c, s.memoryData m n = Memory.readLE c (mappedKey m) n := by
  unfold State.memoryData State.olderData
  dsimp only
  split
  · exact ⟨s.mem, rfl⟩
  · unfold State.choose
    dsimp only
    generalize s.drawNat _ _ % _ = i
    match i with
    | 0 => exact ⟨_, rfl⟩
    | 1 => exact ⟨_, rfl⟩
    | _ + 2 => exact ⟨_, rfl⟩

/-- The value a load returns is made of its own bytes, `n` of them. -/
theorem State.loadData_bytes (s : State) (m : Mapped) (n : Nat) :
    ∃ bs : List Byte, bs.length = n ∧ s.loadData m n = ofBytes bs := by
  unfold State.loadData
  split
  · exact ⟨_, by simp, rfl⟩
  · obtain ⟨c, h⟩ := s.memoryData_reads m n
    exact ⟨Memory.readBytes c (mappedKey m) n, Memory.length_readBytes .., h⟩

/-! Bytes of values -/

theorem getLsbD_ofBytes (bs : List Byte) : ∀ i, i < 128 →
    (ofBytes bs).getLsbD i = (bs[i / 8]?.getD 0).getLsbD (i % 8) := by
  induction bs with
  | nil => intro i _; simp [ofBytes]
  | cons b bs ih =>
    intro i hi
    simp only [ofBytes, BitVec.getLsbD_or, BitVec.getLsbD_setWidth, BitVec.getLsbD_shiftLeft]
    by_cases h : i < 8
    · have h0 : i / 8 = 0 := by omega
      have h1 : i % 8 = i := by omega
      simp [h, h0, h1, hi]
    · have h0 : i / 8 = (i - 8) / 8 + 1 := by omega
      have h1 : (i - 8) % 8 = i % 8 := by omega
      rw [BitVec.getLsbD_of_ge b i (by omega), ih _ (by omega), h0, h1, List.getElem?_cons_succ]
      simp [h, hi]

/-- A bit of the value in memory. -/
theorem Memory.getLsbD_readLE (m : List Host.Cell) (a n i : Nat) (hi : i < 128) :
    (Memory.readLE m a n).getLsbD i =
      (decide (i < 8 * n) && (Memory.read m (a + i / 8)).getLsbD (i % 8)) := by
  unfold Memory.readLE
  rw [getLsbD_ofBytes _ _ hi]
  by_cases h : i < 8 * n
  · rw [Memory.getElem_readBytes _ _ _ _ (by omega)]
    simp [h]
  · rw [List.getElem?_eq_none (by simp; omega)]
    simp [h]

theorem getLsbD_lowBytes (n : Nat) (v : Data) (i : Nat) :
    (lowBytes n v).getLsbD i = (decide (i < 8 * n) && v.getLsbD i) := by
  unfold lowBytes
  simp only [BitVec.getLsbD_setWidth]
  by_cases h : i < 128
  · simp [h]
  · rw [BitVec.getLsbD_of_ge v i (by omega)]
    simp

/-- The bytes at a key are those of a value exactly when the value read there is its low bytes. -/
theorem HoldsBytes.iff_readLE (s : State) (key n : Nat) (v : Word) (hn : n ≤ 8) :
    HoldsBytes s key n v ↔ Memory.readLE s.mem key n = lowBytes n (v.setWidth 128) := by
  constructor
  · intro h
    apply BitVec.eq_of_getLsbD_eq
    intro i hi
    rw [Memory.getLsbD_readLE _ _ _ _ hi, getLsbD_lowBytes]
    by_cases hb : i < 8 * n
    · rw [h (i / 8) (by omega)]
      have h8 : i % 8 < 8 := Nat.mod_lt _ (by decide)
      have hd : 8 * (i / 8) + i % 8 = i := Nat.div_add_mod i 8
      simp [hb, h8, hd, hi]
    · simp [hb]
  · intro h i hi
    apply BitVec.eq_of_getLsbD_eq
    intro j hj
    have h1 := congrArg (fun d => d.getLsbD (8 * i + j)) h
    simp only [Memory.getLsbD_readLE _ _ _ (8 * i + j) (by omega), getLsbD_lowBytes] at h1
    have hb : 8 * i + j < 8 * n := by omega
    have hd : (8 * i + j) / 8 = i := by omega
    have hm : (8 * i + j) % 8 = j := by omega
    have h128 : 8 * i + j < 128 := by omega
    simp only [hb, hd, hm, decide_true, Bool.true_and, BitVec.getLsbD_setWidth, h128] at h1
    rw [h1]
    simp [hj]

/-- The value of `n` bytes from byte `k` on. -/
theorem Memory.readLE_shift (m : List Host.Cell) (a n k : Nat) (hk : k + n ≤ 16) :
    lowBytes n (Memory.readLE m a (k + n) >>> (8 * k)) = Memory.readLE m (a + k) n := by
  apply BitVec.eq_of_getLsbD_eq
  intro i hi
  rw [getLsbD_lowBytes, BitVec.getLsbD_ushiftRight, Memory.getLsbD_readLE _ _ _ _ hi]
  by_cases h : i < 8 * n
  · rw [Memory.getLsbD_readLE _ _ _ _ (by omega)]
    have h1 : (8 * k + i) / 8 = k + i / 8 := by omega
    have h2 : (8 * k + i) % 8 = i % 8 := by omega
    have h3 : 8 * k + i < 8 * (k + n) := by omega
    simp [h, h1, h2, h3, Nat.add_assoc]
  · simp [h]

/-- The value of the first `n` of more bytes. -/
theorem Memory.readLE_low (m : List Host.Cell) (a n k : Nat) :
    lowBytes n (Memory.readLE m a (n + k)) = Memory.readLE m a n := by
  apply BitVec.eq_of_getLsbD_eq
  intro i hi
  rw [getLsbD_lowBytes, Memory.getLsbD_readLE _ _ _ _ hi, Memory.getLsbD_readLE _ _ _ _ hi]
  by_cases h : i < 8 * n
  · have h3 : i < 8 * (n + k) := by omega
    simp [h, h3]
  · simp [h]

/-- A byte of memory after `n` bytes of a value are written. -/
theorem Memory.read_writeLE {m : List Host.Cell} (h : Memory.wf m) (a n : Nat) (v : Data)
    (i : Nat) (hi : i < n) :
    Memory.read (Memory.writeLE m a n v) (a + i) = (v >>> (8 * i)).setWidth 8 := by
  unfold Memory.writeLE
  rw [Memory.read_writeBytes _ h, if_pos (by omega), Nat.add_sub_cancel_left,
    getElem_bytesOf n v i hi]
  rfl

/-- Bytes outside the written ones read as before. -/
theorem Memory.read_writeLE_of_out {m : List Host.Cell} (h : Memory.wf m) {a n b : Nat} (v : Data)
    (ho : b < a ∨ a + n ≤ b) : Memory.read (Memory.writeLE m a n v) b = Memory.read m b := by
  unfold Memory.writeLE
  exact Memory.read_writeBytes_of_out h (by simpa using ho)

/-- A byte of a register pair's data. -/
theorem State.pairData_byte (s : State) (r1 r2 : Reg) (h i : Nat) (hh : h ≤ 8) (hi : i < h) :
    (s.pairData r1 r2 h >>> (8 * i)).setWidth 8 = ((s.xr r1) >>> (8 * i)).setWidth 8 ∧
      (s.pairData r1 r2 h >>> (8 * (h + i))).setWidth 8 = ((s.xr r2) >>> (8 * i)).setWidth 8 := by
  constructor
  · apply BitVec.eq_of_getLsbD_eq
    intro j hj
    have h1 : 8 * i + j < 8 * h := by omega
    have h2 : 8 * i + j < 128 := by omega
    simp only [State.pairData, State.xData, BitVec.getLsbD_setWidth, BitVec.getLsbD_ushiftRight,
      BitVec.getLsbD_or, BitVec.getLsbD_shiftLeft, getLsbD_lowBytes, hj, h1, h2]
    simp
  · apply BitVec.eq_of_getLsbD_eq
    intro j hj
    have h1 : ¬8 * (h + i) + j < 8 * h := by omega
    have h2 : 8 * (h + i) + j < 128 := by omega
    have h3 : 8 * (h + i) + j - 8 * h = 8 * i + j := by omega
    have h4 : 8 * i + j < 8 * h := by omega
    have h5 : 8 * i + j < 128 := by omega
    simp only [State.pairData, State.xData, BitVec.getLsbD_setWidth, BitVec.getLsbD_ushiftRight,
      BitVec.getLsbD_or, BitVec.getLsbD_shiftLeft, getLsbD_lowBytes, hj, h1, h2, h3, h4, h5]
    simp

end Sys2Proof.Machine
end

