-- ==== Sys2Proof/Laws/Atomic.lean ====
section
/-! SUPPORT. When the shared operations of the exclusive and atomic accesses complete, and what the
exceptions they take leave, said once. -/

namespace Sys2Proof.Machine

/-- The UNDEFINED exception (R452). -/
theorem State.undefined_took (s : State) : TookSync s s.undefined s.syncTarget 0x2000000 := by
  have := TookSync.of_entry s s.syncTarget (esrWord 0 0) .unknown none
  rw [show (esrWord 0 0 : Word) = 0x2000000 by decide] at this
  exact this

/-- A Data or Instruction Abort that is no external one. -/
theorem State.takeAbort_took (s : State) (f st : Bool) (iss : BitVec 25) (va : Word)
    (ipa : BitVec 40) (w : Word)
    (hw : w = esrWord ((if f then 0x20 else 0x24) + (if s.abortTarget st false =
        s.el then 1 else 0)) iss) :
    TookSync s (s.takeAbort f st false iss va ipa) (s.abortTarget st false) w ∧
        (s.takeAbort f st false iss va ipa).get (farOf (s.abortTarget st false)) = va := by
  subst hw
  unfold State.takeAbort
  dsimp only
  refine ⟨TookSync.of_entry _ _ _ _ _, ?_⟩
  cases st
  · exact takeException_far _ _ _ _ _ _ _
  · exact takeException_far _ _ _ _ _ _ _

/-- The value a load returns is its own low bytes. -/
theorem State.lowBytes_loadData (s : State) (m : Mapped) (n : Nat) :
    lowBytes n (s.loadData m n) = s.loadData m n := by
  obtain ⟨bs, rfl, h⟩ := s.loadData_bytes m n
  rw [h, lowBytes_ofBytes]

/-- When a Load-Exclusive completes, and the state before its registers are written (R375). -/
theorem State.loadExclusive_completes (s s1 : State) (m : Mapped) (n : Nat) (acq : Bool)
    (rn : Reg) (put : State → Data → State)
    (ha : AddressOk s (s.baseReq rn n true false))
    (hg : Granted s (s.baseReq rn n true false) .read s1 m)
    (hu : Unhindered s1 (s.baseReq rn n true false) m) (hm : s.hasMonitor m = true)
    (hb : s1.busError m n = false) (hn : s.hasNext) :
    ∃ t, s.loadExclusive n acq rn put = .next (put t (s1.loadData m n)) ∧
      t.monitor = .exclusive (tagOf m.pa) m.ns ∧ t.pc = s.pc + 4 ∧ KeepsRegs s t [] 0 ∧
      t.mem = s1.mem ∧ t.events = s.events ++ [.exclusiveRead (mappedKey m) n acq m.attr] ∧
      t.x = s.x := by
  have c : SameCore s (s1.showPbha (s.baseReq rn n true false).va m) :=
      (State.translate_same hg.translated).trans (s1.showPbha_same _ m)
  have hb' : (s1.showPbha (s.baseReq rn n true false).va m).busError m n = false := by
    rw [(s1.showPbha_same _ m).busError]; exact hb
  have hx : s.loadExclusive n acq rn put =
      (s1.showPbha (s.baseReq rn n true false).va m).advanceWith
        fun t => t.doLoadExclusive m n acq put := by
    unfold State.loadExclusive
    dsimp only
    rw [State.access_ok ha hg hu]
    unfold Acc.finish
    dsimp only
    rw [if_neg (by rw [c.hasMonitor]; simp [hm]), if_neg (by rw [hb']; simp)]
  have hmem : (s1.showPbha (s.baseReq rn n true false).va m).mem = s1.mem := rfl
  have hl : (s1.showPbha (s.baseReq rn n true false).va m).loadData m n = s1.loadData m n :=
    State.loadData_congr rfl rfl rfl rfl rfl rfl m n
  rw [← hmem, ← hl]
  generalize s1.showPbha (s.baseReq rn n true false).va m = s2 at c hb' hx hl
  have hn' : s2.pc.toNat + 4 < 2 ^ 64 := by rw [c.pc]; exact hn
  rw [State.advanceWith_eq _ _ hn'] at hx
  have hbe : State.busError { s2 with pc := s2.pc + 4, pstate :=
      { s2.pstate with btype := 0 } } m n = false := hb'
  unfold State.doLoadExclusive State.loadValue at hx
  rw [hbe] at hx
  rw [State.asyncError_none hbe] at hx
  obtain ⟨cc, w, hl⟩ := State.loaded_eq { s2 with pc := s2.pc + 4, pstate :=
      { s2.pstate with btype := 0 } } m
  rw [hl] at hx
  dsimp only at hx
  refine ⟨_, hx, rfl, by show s2.pc + 4 = _; rw [c.pc], ⟨?_, c.sp, ?_, c.vec, c.sys⟩, rfl, ?_, c.x⟩
  · exact fun q _ => State.xr_congr c.x q
  · show { s2.pstate with btype := 0 } = _
    rw [c.pstate]
  · show s2.events ++ _ = _
    rw [c.events]

/-- When a Store-Exclusive completes, and what it leaves (R375). -/
theorem State.storeExclusive_completes (s s1 : State) (m : Mapped) (n : Nat) (rel : Bool)
    (rs rn : Reg) (data : Data)
    (ha : AddressOk s (s.baseReq rn n false true))
    (hg : Granted s (s.baseReq rn n false true) .write s1 m)
    (hu : Unhindered s1 (s.baseReq rn n false true) m) (hm : s.hasMonitor m = true)
    (hn : s.hasNext) :
    ∃ t, s.storeExclusive n rel rs rn data = .next t ∧ t.monitor = .opened ∧ t.pc = s.pc + 4 ∧
        t.exclBudget = s.budgetAfter m n ∧
      (s.storePasses m n = true → t.xr rs = 0 ∧ StoredAt s s1 t [rs] m n data) ∧
      (s.storePasses m n = false → t.xr rs = valueOf rs 1 ∧ KeepsRegs s t [rs] 0 ∧
        t.mem = s1.mem) := by
  have c : SameCore s (s1.showPbha (s.baseReq rn n false true).va m) :=
      (State.translate_same hg.translated).trans (s1.showPbha_same _ m)
  have hx : s.storeExclusive n rel rs rn data =
      (s1.showPbha (s.baseReq rn n false true).va m).advanceWith fun t => t.doStoreExclusive m n rel rs data := by
    unfold State.storeExclusive
    dsimp only
    rw [State.access_ok ha hg hu]
    dsimp only
    rw [if_neg (by rw [c.hasMonitor]; simp [hm])]
  have hmem : (s1.showPbha (s.baseReq rn n false true).va m).mem = s1.mem := rfl
  generalize s1.showPbha (s.baseReq rn n false true).va m = s2 at c hx hmem
  have hn' : s2.pc.toNat + 4 < 2 ^ 64 := by rw [c.pc]; exact hn
  rw [State.advanceWith_eq _ _ hn'] at hx
  refine ⟨_, hx, ?_⟩
  have hp : State.storePasses { s2 with pc := s2.pc + 4, pstate :=
      { s2.pstate with btype := 0 } } m n = s.storePasses m n := c.storePasses m n
  have hbud : State.budgetAfter { s2 with pc := s2.pc + 4, pstate :=
      { s2.pstate with btype := 0 } } m n = s.budgetAfter m n := c.budgetAfter m n
  have kp : KeepsRegs s { s2 with pc := s2.pc + 4, pstate :=
      { s2.pstate with btype := 0 } } [] 0 := KeepsRegs.of_same c
  have kpc : ({ s2 with pc := s2.pc + 4, pstate := { s2.pstate with btype := 0 } } : State).pc =
      s.pc + 4 := by show s2.pc + 4 = _; rw [c.pc]
  have kmem : ({ s2 with pc := s2.pc + 4, pstate :=
      { s2.pstate with btype := 0 } } : State).mem = s1.mem := hmem
  have kb : State.onUtilityBus { s2 with pc := s2.pc + 4, pstate :=
      { s2.pstate with btype := 0 } } m = s.onUtilityBus m := c.onUtilityBus m
  generalize ({ s2 with pc := s2.pc + 4, pstate := { s2.pstate with btype := 0 } } : State) =
      u at hp hbud kp kpc kmem kb
  have sx : ∀ (u : State) r v, ∃ x, u.setX r v = { u with x := x } := by
    intro u r v; unfold State.setX; split; exact ⟨_, rfl⟩; exact ⟨u.x, rfl⟩
  unfold State.doStoreExclusive
  rw [hp, hbud]
  dsimp only
  cases hpp : s.storePasses m n
  · obtain ⟨x, hx1⟩ := sx u rs 1
    simp only [Bool.false_eq_true, if_false]
    refine ⟨rfl, ?_, trivial, (fun h => nomatch h), fun _ => ⟨?_, ⟨?_, ?_, ?_, ?_, ?_⟩, ?_⟩⟩
    · show (u.setX rs 1).pc = _; rw [hx1]; exact kpc
    · show (u.setX rs 1).xr rs = _
      rw [State.xr_setX]; unfold valueOf
      by_cases h : rs = 31
      · subst h; rw [if_neg (by simp), if_pos rfl]; rfl
      · rw [if_pos ⟨rfl, h⟩, if_neg h]
    · intro q hq
      show (u.setX rs 1).xr q = _
      rw [State.xr_setX, if_neg (by simp at hq; simp [hq])]; exact kp.general q (by simp)
    · show (u.setX rs 1).sp = _; rw [hx1]; exact kp.pointers
    · show (u.setX rs 1).pstate = _; rw [hx1]; exact kp.pstate
    · show (u.setX rs 1).vec = _; rw [hx1]; exact kp.vectors
    · show (u.setX rs 1).sys = _; rw [hx1]; exact kp.special
    · show (u.setX rs 1).mem = _; rw [hx1]; exact kmem
  · simp only [if_true]
    obtain ⟨i, hi⟩ := u.asyncError_eq m n
    have hs := ((u.asyncError m n).storeData_stores m n data).congr (u := u)
      (v := ((u.asyncError m n).storeData m n data).record (.write (mappedKey m) n rel))
      (by rw [hi]) (by rw [hi]) (by rw [hi]) rfl rfl
    obtain ⟨mem, cc, w, sys, un, he⟩ := (u.asyncError m n).store_eq m (bytesOf n data)
    have hst : (u.asyncError m n).storeData m n data = _ := he
    have ht := (StoredAt.of_stores kp kb kmem hs (by rw [hst, hi]; rfl) (by rw [hst, hi]; rfl)
      (by rw [hst, hi]; rfl) (by rw [hst, hi]; rfl)).setX rs 0
    refine ⟨rfl, ?_, trivial, fun _ => ⟨?_, ?_⟩, (fun h => nomatch h)⟩
    · obtain ⟨x, hx1⟩ := sx (((u.asyncError m n).storeData m n data).record
        (.write (mappedKey m) n rel)) rs 0
      show (State.setX _ rs 0).pc = _
      rw [hx1, hst, hi]; exact kpc
    · show (State.setX _ rs 0).xr rs = _
      rw [State.xr_setX]
      by_cases h : rs = 31
      · subst h; rw [if_neg (by simp)]; rfl
      · rw [if_pos ⟨rfl, h⟩]
    · exact ⟨fun h1 => ⟨⟨(ht.memory h1).1.general, (ht.memory h1).1.pointers,
          (ht.memory h1).1.pstate, (ht.memory h1).1.vectors, (ht.memory h1).1.special⟩,
          (ht.memory h1).2⟩,
        fun h1 => ⟨⟨(ht.bus h1).1.general, (ht.bus h1).1.pointers,
          (ht.bus h1).1.pstate, (ht.bus h1).1.vectors, (ht.bus h1).1.special⟩, (ht.bus h1).2⟩⟩

theorem State.settled_same {s s1 s2 : State} {w : Bool} (h1 : SameCore s s1)
    (h2 : SameCore s s2) : SameCore s (s1.settled s2 w) :=
  { h2 with bad := by cases w; exact h1.bad; exact h2.bad }

/-- When a compare and swap completes, and the state before its registers are written. -/
theorem State.compareSwap_completes (s s1 s2 u : State) (m1 m : Mapped) (n : Nat)
    (acq rel : Bool) (rn : Reg) (cmp new : Data) (put : State → Data → State)
    (ha : AddressOk s (s.baseReq rn n true true))
    (hg : Granted s (s.baseReq rn n true true) .read s1 m1)
    (hg2 : Granted s1 (s.baseReq rn n true true) .write s2 m)
    (hu0 : u = s1.settled s2 (s1.casWrites m1 n cmp))
    (hu : Unhindered u (s.baseReq rn n true true) m) (hc : s.isCached m =
        true ∨ s.cfg.interconnectAtomics = true) (hn : s.hasNext) :
    ∃ t, s.compareSwap n acq rel rn cmp new put =
        .next (put t (u.loadData m n)) ∧
      t.pc = s.pc + 4 ∧ t.x = s.x ∧
      (u.loadData m n = cmp → StoredAt s u t [] m n new) ∧
      (u.loadData m n ≠ cmp → KeepsRegs s t [] 0 ∧ t.mem = u.mem) ∧
      (t.monitor = s.monitor ∨ t.monitor = .opened) := by
  have c1 := State.translate_same hg.translated
  have c2 := c1.trans (State.translate_same hg2.translated)
  have cu : SameCore s u := hu0 ▸ State.settled_same c1 c2
  have c : SameCore s (u.showPbha (s.baseReq rn n true true).va m) :=
    cu.trans (u.showPbha_same _ m)
  have hx : s.compareSwap n acq rel rn cmp new put =
      (u.showPbha (s.baseReq rn n true true).va m).advanceWith fun u => u.doCompareSwap m n acq rel cmp new put := by
    unfold State.compareSwap
    dsimp only
    rw [ha.preCheck, hg.xlate]
    dsimp only
    rw [hg2.xlate]
    dsimp only
    rw [← hu0, hu.afterXlate]
    unfold Acc.finish State.atomicGate
    dsimp only
    rw [if_pos (by rw [c.isCached, c.cfg]; rcases hc with h | h <;> simp [h])]
  have hmem : (u.showPbha (s.baseReq rn n true true).va m).mem = u.mem := rfl
  have hl : (u.showPbha (s.baseReq rn n true true).va m).loadData m n = u.loadData m n :=
    State.loadData_congr rfl rfl rfl rfl rfl rfl m n
  rw [← hl]
  generalize u.showPbha (s.baseReq rn n true true).va m = u2 at c hx hmem
  have hn' : u2.pc.toNat + 4 < 2 ^ 64 := by rw [c.pc]; exact hn
  rw [State.advanceWith_eq _ _ hn'] at hx
  have kp : KeepsRegs s { u2 with pc := u2.pc + 4, pstate :=
      { u2.pstate with btype := 0 } } [] 0 := KeepsRegs.of_same c
  have kx : ({ u2 with pc := u2.pc + 4, pstate := { u2.pstate with btype := 0 } } : State).x =
      s.x := c.x
  have kpc : ({ u2 with pc := u2.pc + 4, pstate := { u2.pstate with btype := 0 } } : State).pc =
      s.pc + 4 := by show u2.pc + 4 = _; rw [c.pc]
  have kmem : ({ u2 with pc := u2.pc + 4, pstate :=
      { u2.pstate with btype := 0 } } : State).mem = u.mem := hmem
  have kmon : ({ u2 with pc := u2.pc + 4, pstate :=
      { u2.pstate with btype := 0 } } : State).monitor = s.monitor := c.monitor
  have kb : State.onUtilityBus { u2 with pc := u2.pc + 4, pstate :=
      { u2.pstate with btype := 0 } } m = s.onUtilityBus m := c.onUtilityBus m
  have kl : ({ u2 with pc := u2.pc + 4, pstate :=
      { u2.pstate with btype := 0 } } : State).loadData m n = u2.loadData m n :=
    State.loadData_congr rfl rfl rfl rfl rfl rfl m n
  generalize ({ u2 with pc := u2.pc + 4, pstate := { u2.pstate with btype := 0 } } : State) =
      v at hx kp kx kpc kmem kmon kl kb
  rw [← kl]
  have hx2 : s.compareSwap n acq rel rn cmp new put = .next (put ((if (v.loadData m n == cmp) =
      true then v.atomicStore m n new else (v.asyncError m n).loaded m).record
      (.update (mappedKey m) n acq rel)) (v.loadData m n)) := hx
  refine ⟨_, hx2, ?_⟩
  by_cases he : v.loadData m n = cmp
  · rw [if_pos (by simpa using he)]
    obtain ⟨⟨mem, cc, w, i, o, sys, un, h1, h2⟩, hs⟩ := v.atomicStore_eq m n new
    have hs' := hs.congr (u := v) (v := (v.atomicStore m n new).record
      (.update (mappedKey m) n acq rel)) rfl rfl rfl rfl rfl
    refine ⟨?_, ?_, fun _ => StoredAt.of_stores kp kb kmem hs' ?_ ?_ ?_ ?_, fun h => absurd he h, ?_⟩
    all_goals rw [h1]
    · exact kpc
    · exact kx
    · rfl
    · rfl
    · rfl
    · rfl
    · rw [← kmon]; exact h2
  · rw [if_neg (by simpa using he)]
    obtain ⟨i, hi⟩ := v.asyncError_eq m n
    obtain ⟨cc, w, h1⟩ := (v.asyncError m n).loaded_eq m
    rw [h1, hi]
    exact ⟨kpc, kx, fun h => absurd h he,
      fun _ => ⟨⟨kp.general, kp.pointers, kp.pstate, kp.vectors, kp.special⟩, kmem⟩, .inl kmon⟩

/-- When an atomic update completes, and the state before its register is written. -/
theorem atomicUpdate_completes (s s1 s2 : State) (m1 m : Mapped) (op : AtomicOp) (sz : Size)
    (acq rel : Bool) (rs rt rn : Reg) (ha : AddressOk s (s.baseReq rn sz.bytes true true))
    (hg : Granted s (s.baseReq rn sz.bytes true true) .read s1 m1)
    (hg2 : Granted s1 (s.baseReq rn sz.bytes true true) .write s2 m)
    (hu : Unhindered s2 (s.baseReq rn sz.bytes true true) m)
    (hc : s.isCached m = true ∨ s.cfg.interconnectAtomics = true) (hn : s.hasNext) :
    ∃ t, atomicUpdate op sz acq rel rs rt rn s =
        .next (t.setXData rt sz.bytes (s2.loadData m sz.bytes)) ∧
      t.pc = s.pc + 4 ∧ t.x = s.x ∧
      StoredAt s s2 t [] m sz.bytes (op.apply sz.bytes (s2.loadData m sz.bytes)
        (s.xData rs sz.bytes)) ∧
      t.events = s.events ++ [.update (mappedKey m) sz.bytes (acq && rt != 31) rel] ∧
      (t.monitor = s.monitor ∨ t.monitor = .opened) := by
  unfold atomicUpdate
  generalize s.xData rs sz.bytes = v
  generalize sz.bytes = n at *
  have c : SameCore s (s2.showPbha (s.baseReq rn n true true).va m) :=
      ((State.translate_same hg.translated).trans (State.translate_same hg2.translated)).trans
        (s2.showPbha_same _ m)
  dsimp only
  rw [State.accessBoth_ok ha hg hg2 hu]
  unfold Acc.finish State.atomicGate
  dsimp only
  rw [if_pos (by rw [c.isCached, c.cfg]; rcases hc with h | h <;> simp [h])]
  have hmem : (s2.showPbha (s.baseReq rn n true true).va m).mem = s2.mem := rfl
  have hl : (s2.showPbha (s.baseReq rn n true true).va m).loadData m n = s2.loadData m n :=
    State.loadData_congr rfl rfl rfl rfl rfl rfl m n
  rw [← hl]
  generalize s2.showPbha (s.baseReq rn n true true).va m = u2 at c hmem
  have hn' : u2.pc.toNat + 4 < 2 ^ 64 := by rw [c.pc]; exact hn
  rw [State.advanceWith_eq _ _ hn']
  have kp : KeepsRegs s { u2 with pc := u2.pc + 4, pstate :=
      { u2.pstate with btype := 0 } } [] 0 := KeepsRegs.of_same c
  have kx : ({ u2 with pc := u2.pc + 4, pstate := { u2.pstate with btype := 0 } } : State).x =
      s.x := c.x
  have kpc : ({ u2 with pc := u2.pc + 4, pstate := { u2.pstate with btype := 0 } } : State).pc =
      s.pc + 4 := by show u2.pc + 4 = _; rw [c.pc]
  have kmem : ({ u2 with pc := u2.pc + 4, pstate :=
      { u2.pstate with btype := 0 } } : State).mem = s2.mem := hmem
  have kmon : ({ u2 with pc := u2.pc + 4, pstate :=
      { u2.pstate with btype := 0 } } : State).monitor = s.monitor := c.monitor
  have kev : ({ u2 with pc := u2.pc + 4, pstate :=
      { u2.pstate with btype := 0 } } : State).events = s.events := c.events
  have kb : State.onUtilityBus { u2 with pc := u2.pc + 4, pstate :=
      { u2.pstate with btype := 0 } } m = s.onUtilityBus m := c.onUtilityBus m
  have kl : ({ u2 with pc := u2.pc + 4, pstate :=
      { u2.pstate with btype := 0 } } : State).loadData m n = u2.loadData m n :=
    State.loadData_congr rfl rfl rfl rfl rfl rfl m n
  generalize ({ u2 with pc := u2.pc + 4, pstate := { u2.pstate with btype := 0 } } : State) =
      w at kp kx kpc kmem kmon kev kl kb
  rw [← kl]
  refine ⟨(w.atomicStore m n (op.apply n (w.loadData m n) v)).record
    (.update (mappedKey m) n (acq && rt != 31) rel), rfl, ?_⟩
  obtain ⟨⟨mem, cc, ww, i, o, sys, un, h1, h2⟩, hs⟩ :=
      w.atomicStore_eq m n (op.apply n (w.loadData m n) v)
  have hs' := hs.congr (u := w) (v := (w.atomicStore m n (op.apply n (w.loadData m n) v)).record
    (.update (mappedKey m) n (acq && rt != 31) rel)) rfl rfl rfl rfl rfl
  refine ⟨?_, ?_, StoredAt.of_stores kp kb kmem hs' ?_ ?_ ?_ ?_, ?_, ?_⟩
  all_goals rw [h1]
  · exact kpc
  · exact kx
  · rfl
  · rfl
  · rfl
  · rfl
  · show w.events ++ _ = _; rw [kev]
  · rw [← kmon]; exact h2

/-- The operation at the access size, as an operation on values of that width. -/
theorem AtomicOp.lowBytes_apply (op : AtomicOp) (n : Nat) (hn : n ≤ 8)
    (a b : Data) : lowBytes n (op.apply n a b) = lowBytes n (((op.result (a.setWidth (8 * n))
        (b.setWidth (8 * n))).setWidth 64).setWidth 128) := by
  unfold AtomicOp.apply
  apply BitVec.eq_of_getLsbD_eq; intro i hi
  simp only [getLsbD_lowBytes, BitVec.getLsbD_setWidth]
  by_cases h : i < 8 * n
  · have : i < 64 := by omega
    simp [h, this, hi]
  · simp [h]

theorem State.setWidth_xData (s : State) (q : Reg) (n : Nat)
    (hn : n ≤ 8) : (s.xData q n).setWidth (8 * n) = (s.xr q).setWidth (8 * n) := by
  unfold State.xData
  apply BitVec.eq_of_getLsbD_eq; intro i hi
  simp only [BitVec.getLsbD_setWidth, getLsbD_lowBytes]
  have : i < 128 := by omega
  simp [hi, this]

end Sys2Proof.Machine
end

