-- ==== Sys2Proof/Laws/CacheOps.lean ====
section
/-! SUPPORT. What the cache operations keep: the L1 data cache and the L2 cache stay strictly
exclusive (R227), and no operation but an invalidation changes memory. -/

namespace Sys2Proof.Machine

/-- The caches after a miss are exclusive. -/
theorem State.missCaches_exclusive (s : State) {c : Caches} (h : ExclusiveCaches c) (b : Nat)
    (store : Bool) (attr : MemAttr) : ExclusiveCaches (s.missCaches c b store attr) := by
  have ho : (blockBytes s.mem b).length ≤ 64 := Nat.le_of_eq (length_blockBytes _ _)
  have mark : ∀ e : CacheLine, e.below.length ≤ 64 →
      (if store then dirtied e (blockBytes s.mem b) else e).below.length ≤ 64 := by
    intro e he; split
    · exact dirtied_below he ho
    · exact he
  have i1 := h.insertL1 _ (s.drawNat .cacheSet 1 % l2Sets s.cfg) (s.drawNat .cacheWay 1 % 8)
    (mark (s.newLine b attr.transient) (by simp [State.newLine]))
  have i2 := h.insertL2 _ (mark (s.newL2Line b 3 attr.transient) (by simp [State.newL2Line]))
  unfold State.missCaches
  dsimp only
  by_cases hs : (store && s.mwb.l1) = true
  · rw [if_pos hs]
    by_cases h2 : s.mwb.l2 = true
    · rw [if_pos h2]; exact h
    · rw [if_neg h2]; exact i2
  rw [if_neg hs]
  by_cases ht : (attr.transient && store) = true
  · rw [if_pos ht]; exact i2
  rw [if_neg ht]
  by_cases ha : (!attr.allocate && !attr.transient) = true
  · rw [if_pos ha]; exact h
  rw [if_neg ha]
  by_cases hd : s.drawBool .cacheAllocate 0 = true
  · rw [if_pos hd]; exact i1
  · rw [if_neg hd]; exact i2

/-- An access keeps the caches exclusive (R227). -/
theorem State.touchCaches_exclusive {s : State} (h : ExclusiveCaches s.cache) (b : Nat)
    (store : Bool) (attr : MemAttr) : ExclusiveCaches (s.touchCaches b store attr) := by
  have ho : (blockBytes s.mem b).length ≤ 64 := Nat.le_of_eq (length_blockBytes _ _)
  have mark : ∀ e : CacheLine, e.below.length ≤ 64 →
      (if store then dirtied e (blockBytes s.mem b) else e).below.length ≤ 64 := by
    intro e he; split
    · exact dirtied_below he ho
    · exact he
  have h0 : ExclusiveCaches { s.cache with lookups := s.cache.lookups + 1 } := h.of_eq rfl rfl
  unfold State.touchCaches
  dsimp only
  split
  · split
    · exact h0.dirty b _ ho (.inr rfl) (.inl rfl)
    · exact h0
  · split
    · rename_i e hf
      have he : e ∈ s.cache.l2 := List.mem_of_find?_eq_some hf
      split
      · exact h0.insertL1 _ _ _ (mark _ (show e.below.length ≤ 64 from h.below2 he))
      · split
        · exact h0.dirty b _ ho (.inl rfl) (.inr rfl)
        · exact h0
    · exact s.missCaches_exclusive h0 _ _ _

/-- A load keeps the caches exclusive. -/
theorem State.loaded_exclusive {s : State} (h : ExclusiveCaches s.cache) (m : Mapped) :
    ExclusiveCaches (s.loaded m).cache := by
  unfold State.loaded
  dsimp only
  split
  · exact State.touchCaches_exclusive h _ _ _
  · exact h

/-- A store keeps the caches exclusive. -/
theorem State.store_exclusive {s : State} (h : ExclusiveCaches s.cache) (m : Mapped)
    (bs : List Byte) : ExclusiveCaches (s.store m bs).cache := by
  unfold State.store
  split
  · rw [State.utilityStore_cache]; exact h
  unfold State.storeMemory
  dsimp only
  split
  · exact (State.touchCaches_exclusive h (blockOf (mappedKey m)) true m.attr).of_eq rfl rfl
  · exact (h.through (mappedKey m) bs).of_eq rfl rfl

/-- A store keeps the canonical form of memory. -/
theorem State.store_wf {s : State} (h : Memory.wf s.mem) (m : Mapped) (bs : List Byte) :
    Memory.wf (s.store m bs).mem := by
  unfold State.store
  split
  · rw [State.utilityStore_mem]; exact h
  · exact Memory.wf_writeBytes _ h

/-- An invalidation: memory as before, or with the block as it was below the line (R416). -/
theorem State.invalidateBlock_mem (s : State) (b : Nat) (clean : Bool) :
    (s.invalidateBlock b clean).mem = s.mem ∨
      ∃ bs, s.cache.dirtyBelow b = some bs ∧
        (s.invalidateBlock b clean).mem = Memory.writeBytes s.mem (b * 64) bs := by
  unfold State.invalidateBlock
  split
  · exact .inl rfl
  · split
    · rename_i bs hd
      dsimp only
      split
      · exact .inr ⟨bs, hd, rfl⟩
      · exact .inl rfl
    · exact .inl rfl

/-- An invalidation leaves the block in neither cache. -/
theorem State.invalidateBlock_gone (s : State) (b : Nat) (clean : Bool) :
    holdsBlock (s.invalidateBlock b clean).cache.l1d b = false ∧
      holdsBlock (s.invalidateBlock b clean).cache.l2 b = false := by
  unfold State.invalidateBlock
  split
  · exact ⟨holdsBlock_dropBlock _ _, holdsBlock_dropBlock _ _⟩
  · split
    · dsimp only
      split <;> exact ⟨holdsBlock_dropBlock _ _, holdsBlock_dropBlock _ _⟩
    · exact ⟨holdsBlock_dropBlock _ _, holdsBlock_dropBlock _ _⟩

/-- An invalidation keeps the caches exclusive. -/
theorem State.invalidateBlock_exclusive {s : State} (h : ExclusiveCaches s.cache) (b : Nat)
    (clean : Bool) : ExclusiveCaches (s.invalidateBlock b clean).cache := by
  have hw := h.without b
  unfold State.invalidateBlock
  split
  · exact hw.of_eq rfl rfl
  · split
    · dsimp only
      split
      · exact hw.of_eq rfl rfl
      · exact hw
    · exact hw

/-- An invalidation that cleans first is a clean of the block by software, whether a cache holds it
or not: no old word of it is left unclean (R192). -/
theorem State.invalidateBlock_cleaned (s : State) (b : Nat) :
    ∀ w ∈ (s.invalidateBlock b true).cache.old, blockOf w.key = b → w.unclean = false := by
  intro w hw hb
  obtain ⟨v, -, rfl⟩ := List.mem_map.1 (show w ∈ s.cache.old.map _ from hw)
  by_cases h : blockOf v.key = b <;> simp_all

end Sys2Proof.Machine
end

