-- ==== Sys2Proof/Laws/System.lean ====
section
/-! SUPPORT. What the system instructions and the register accesses can do, said once. -/

namespace Sys2Proof.Machine

/-- Writing a list of registers: the value of each is the one written, of any other as before. -/
theorem State.foldl_put_get (l : List (SysReg × Nat)) (f : Nat → Word) (q : SysReg) :
    ∀ s : State, (l.map (·.1)).Nodup →
      (l.foldl (fun t p => t.put p.1 (f p.2)) s).get q =
        match l.find? (fun p => p.1 == q) with
        | some p => f p.2
        | none => s.get q := by
  induction l with
  | nil => intro s _; rfl
  | cons p l ih =>
    intro s h
    simp only [List.map_cons, List.nodup_cons] at h
    rw [List.foldl_cons, ih _ h.2, List.find?_cons]
    by_cases hp : p.1 = q
    · subst hp
      have hn : List.find? (fun x => x.1 == p.1) l = none := by
        rw [List.find?_eq_none]
        intro x hx
        simp only [beq_iff_eq]
        exact fun e => h.1 (List.mem_map.2 ⟨x, hx, e⟩)
      simp [hn]
    · have hb : (p.1 == q) = false := by simp [hp]
      rw [hb]
      dsimp only
      cases List.find? (fun x => x.1 == q) l with
      | none => dsimp only; rw [State.get_put, if_neg (fun e => hp e.symm)]
      | some _ => rfl

/-- Writing a list of registers changes the system registers alone. -/
theorem State.foldl_put_same (l : List (SysReg × Nat)) (f : Nat → Word) : ∀ s : State,
    ∃ v, l.foldl (fun t p => t.put p.1 (f p.2)) s = { s with sys := v } := by
  induction l with
  | nil => exact fun s => ⟨s.sys, rfl⟩
  | cons p l ih =>
    intro s
    obtain ⟨v, hv⟩ := ih (s.put p.1 (f p.2))
    exact ⟨v, by rw [List.foldl_cons, hv]; rfl⟩

/-- The RAMINDEX write: every system register after it (R312). -/
theorem State.doRamIndex_get (s : State) (w : Word) (q : SysReg) :
    (s.doRamIndex w).get q =
      match ramDataRegs.find? (fun p => p.1 == q) with
      | some p => Config.ramRead w s.draws p.2
      | none => s.get q := by
  have hd : (ramDataRegs.map (·.1)).Nodup := by decide
  unfold State.doRamIndex
  generalize ramDataRegs = l at hd ⊢
  exact State.foldl_put_get l (fun k => Config.ramRead w s.draws k) q s hd

/-- The RAMINDEX write changes the data registers and the records of the access alone. -/
theorem State.doRamIndex_same (s : State) (w : Word) :
    ∃ v, s.doRamIndex w = { s with
      sys := v, ram := ⟨w, s.draws, true, false⟩, events := s.events ++ [.disturbance] } := by
  unfold State.doRamIndex
  generalize ramDataRegs = l
  obtain ⟨v, hv⟩ := State.foldl_put_same l (fun k => Config.ramRead w s.draws k) s
  refine ⟨v, ?_⟩
  dsimp only
  rw [hv]
  rfl

/-- Clean and invalidate by set and way changes the caches and may pend an SError (R414). -/
theorem State.doCleanSetWay_same (s : State) (level set way : Nat) :
    ∃ c irq ev, s.doCleanSetWay level set way = { s with cache := c, irq := irq, events := ev } := by
  unfold State.doCleanSetWay
  dsimp only
  generalize s.writeBackError (if level = 0 then s.cache.l1d else s.cache.l2) set way = b
  cases b
  · exact ⟨_, s.irq, _, rfl⟩
  · exact ⟨_, s.pendSError.irq, _, rfl⟩

/-! Reading and writing system registers -/

/-- What a register access or an error may change: the stack pointers, PSTATE, the system registers
and the record of unsynchronised writes, the OS Lock, the GIC CPU interface, the RAS unit, the
trace unit, the Debug Communications Channel. -/
def RegistersOnly (s t : State) : Prop :=
  ∃ sp p sys un lock gic ras tr db, t =
    { s with sp := sp, pstate := p, sys := sys, unsynced := un, osLock := lock, gic := gic, ras := ras
             trace := tr, dbg := db }

theorem RegistersOnly.refl (s : State) : RegistersOnly s s :=
  ⟨_, _, _, _, _, _, _, _, _, rfl⟩

theorem RegistersOnly.trans {s t u : State} (h : RegistersOnly s t) (g : RegistersOnly t u) :
    RegistersOnly s u := by
  obtain ⟨_, _, _, _, _, _, _, _, _, rfl⟩ := h
  obtain ⟨_, _, _, _, _, _, _, _, _, rfl⟩ := g
  exact ⟨_, _, _, _, _, _, _, _, _, rfl⟩

theorem RegistersOnly.put (s : State) (r : SysReg) (v : Word) : RegistersOnly s (s.put r v) :=
  ⟨_, _, _, _, _, _, _, _, _, rfl⟩

theorem RegistersOnly.control (s : State) (r : SysReg) (v : Word) :
    RegistersOnly s (s.putControl r v) := ⟨_, _, _, _, _, _, _, _, _, rfl⟩

theorem RegistersOnly.through (s : State) (r : SysReg) (via : Option SysReg) (v : Word) :
    RegistersOnly s (s.putThrough r via v) := ⟨_, _, _, _, _, _, _, _, _, rfl⟩

theorem RegistersOnly.unit (s : State) (r : SysReg) (f : Word → Word) :
    RegistersOnly s (s.putByUnit r f) := ⟨_, _, _, _, _, _, _, _, _, rfl⟩

theorem RegistersOnly.gic (s : State) (g : GicIface) : RegistersOnly s { s with gic := g } :=
  ⟨_, _, _, _, _, _, _, _, _, rfl⟩

theorem RegistersOnly.dbg (s : State) (d : DebugUnit) : RegistersOnly s { s with dbg := d } :=
  ⟨_, _, _, _, _, _, _, _, _, rfl⟩

theorem RegistersOnly.ras (s : State) (r : RasUnit) : RegistersOnly s { s with ras := r } :=
  ⟨_, _, _, _, _, _, _, _, _, rfl⟩

/-! The GIC CPU interface -/

theorem State.acknowledge_only (s : State) (g0 : Bool) : RegistersOnly s (s.acknowledge g0) := by
  unfold State.acknowledge
  split
  · exact .gic s _
  · exact .refl s

theorem State.virtAcknowledge_only (s : State) (g0 : Bool) :
    RegistersOnly s (s.virtAcknowledge g0) := by
  unfold State.virtAcknowledge
  split
  · exact (RegistersOnly.unit s _ _).trans (.unit _ _ _)
  · exact .refl s

/-- A read has a side effect on the GIC CPU interface or the Debug Communications Channel at most.
-/
theorem State.afterRead_only (s : State) (r : SysReg) : RegistersOnly s (s.afterRead r) := by
  have g : RegistersOnly s (s.afterGicRead r) := by
    unfold State.afterGicRead
    repeat' split
    all_goals first
      | with_reducible exact s.virtAcknowledge_only _
      | with_reducible exact s.acknowledge_only _
      | with_reducible exact .refl s
  unfold State.afterRead
  split
  · exact .dbg s _
  · exact .dbg s _
  · split
    · exact g
    · exact .refl s

theorem State.virtDeactivate_only (s : State) (r : SysReg) : RegistersOnly s (s.virtDeactivate r) := by
  unfold State.virtDeactivate
  dsimp only
  split
  · exact (RegistersOnly.control s _ _).trans (.gic _ _)
  · exact .control s _ _

theorem State.virtEnd_only (s : State) (g0 : Bool) (w : Word) : RegistersOnly s (s.virtEnd g0 w) := by
  unfold State.virtEnd
  dsimp only
  split
  · exact .through s _ _ _
  · split
    · exact (RegistersOnly.through s _ _ _).trans (State.virtDeactivate_only _ _)
    · exact .through s _ _ _

theorem State.writeVirtual_only (s : State) (r : SysReg) (w : Word) :
    RegistersOnly s (s.writeVirtual r w) := by
  unfold State.writeVirtual
  split
  all_goals first
    | with_reducible exact s.virtEnd_only _ _
    | with_reducible exact .put s _ _
    | with_reducible exact .control s _ _
    | with_reducible exact .through s _ _ _
    | with_reducible exact .refl s
    | (split
       · exact s.virtDeactivate_only _
       · exact .refl s)

theorem State.endInterrupt_only (s : State) (g0 : Bool) (w : Word) :
    RegistersOnly s (s.endInterrupt g0 w) := .gic s _

theorem State.writeGic_only (s : State) (r : SysReg) (w : Word) :
    RegistersOnly s (s.writeGic r w) := by
  unfold State.writeGic
  split
  · exact s.writeVirtual_only r w
  · split
    all_goals first
      | with_reducible exact s.endInterrupt_only _ _
      | with_reducible exact .put s _ _
      | with_reducible exact .control s _ _
      | with_reducible exact .gic s _
      | exact .gic s _

/-! The error record -/

theorem State.injectError_only (s : State) (w : Word) : RegistersOnly s (s.injectError w) := by
  unfold State.injectError
  split
  · exact .ras s _
  · exact .refl s

theorem State.writeErrStatus_only (s : State) (w : Word) : RegistersOnly s (s.writeErrStatus w) := by
  unfold State.writeErrStatus
  dsimp only
  split
  · exact .put s _ _
  · exact (RegistersOnly.put s _ _).trans (.ras _ _)

theorem State.writeInjectCtl_only (s : State) (w : Word) : RegistersOnly s (s.writeInjectCtl w) := by
  unfold State.writeInjectCtl
  dsimp only
  split
  · exact .control s _ _
  · exact (RegistersOnly.control s _ _).trans (State.injectError_only _ _)

theorem State.writeInjectCdn_only (s : State) (w : Word) : RegistersOnly s (s.writeInjectCdn w) :=
  (RegistersOnly.put s _ _).trans (.ras _ _)

/-- Writing registers one after another changes the system registers and the record of
unsynchronised writes alone. -/
theorem State.foldl_through_zero (l : List SysReg) (via : Option SysReg) : ∀ s : State,
    ∃ v un, l.foldl (fun t r => t.putThrough r via 0) s = { s with sys := v, unsynced := un } := by
  induction l with
  | nil => exact fun s => ⟨s.sys, s.unsynced, rfl⟩
  | cons p l ih =>
    intro s
    obtain ⟨v, un, hv⟩ := ih (s.putThrough p via 0)
    exact ⟨v, un, by rw [List.foldl_cons, hv]; rfl⟩

theorem State.writePmcr_same (s : State) (w : Word) :
    ∃ v un, s.writePmcr w = { s with sys := v, unsynced := un } := by
  unfold State.writePmcr
  dsimp only
  obtain ⟨v, un, hv⟩ := State.foldl_through_zero pmevcntrs (some .pmcr_el0)
    (s.putControl .pmcr_el0 (s.legalise .pmcr_el0 w))
  rw [hv]
  cases bit w 1 <;> cases bit w 2 <;> exact ⟨_, _, rfl⟩

theorem State.writePmcr_only (s : State) (w : Word) : RegistersOnly s (s.writePmcr w) := by
  obtain ⟨v, un, h⟩ := s.writePmcr_same w
  rw [h]
  exact ⟨_, _, _, _, _, _, _, _, _, rfl⟩

theorem State.writeTimerVal_only (s : State) (r : SysReg) (w : Word) :
    RegistersOnly s (s.writeTimerVal r w) := by
  unfold State.writeTimerVal
  split
  · exact .through s _ _ _
  · exact .refl s

/-- The write of a system register changes registers alone. -/
theorem State.writeSys_only (s : State) (r : SysReg) (w : Word) : RegistersOnly s (s.writeSys r w) := by
  unfold State.writeSys
  split
  all_goals first
    | with_reducible exact .refl s
    | with_reducible exact .put s _ _
    | with_reducible exact .control s _ _
    | with_reducible exact .through s _ _ _
    | with_reducible exact s.writeTimerVal_only _ _
    | with_reducible exact s.writePmcr_only w
    | with_reducible exact .dbg s _
    | (split <;> first
        | with_reducible exact .refl s
        | with_reducible exact .put s _ _
        | with_reducible exact s.writeGic_only _ _
        | with_reducible exact .control s _ _
        | with_reducible exact .through s _ _ _
        | with_reducible exact s.writeErrStatus_only w
        | with_reducible exact s.writeInjectCtl_only w
        | with_reducible exact s.writeInjectCdn_only w
        | (split <;> first
            | with_reducible exact .refl s
            | with_reducible exact .put s _ _
            | with_reducible exact .through s _ _ _))
    | exact ⟨_, _, _, _, _, _, _, _, _, rfl⟩

end Sys2Proof.Machine
end

