-- ==== Sys2Proof/Laws/Keeps.lean ====
section
/-! SUPPORT. What execution does to the invariants of Safety.lean: each shared operation, and so
each instruction, carries them from the state before to the state after, and which of them keep the
outputs of the RAS unit asserted. -/

-- One proof at a time: every thread takes memory of its own.
set_option Elab.async false

namespace Sys2Proof.Machine

variable {Q : Prop}

theorem StaysRaised.of_same {s t : State} (h : t.ras = s.ras) : StaysRaised s t :=
  ⟨h ▸ id, h ▸ id⟩

/-- The second state meets each invariant that the first one meets; and where `Q` holds, which says
that the error record is neither cleared nor reset, the outputs of the RAS unit stay asserted. -/
structure Upholds (Q : Prop) (s t : State) : Prop where
  memory : Memory.wf s.mem → Memory.wf t.mem
  fixed : FixedBits s → FixedBits t
  mode : LegalMode s → LegalMode t
  caches : ExclusiveCaches s.cache → ExclusiveCaches t.cache
  outputs : Q → StaysRaised s t

/-- A next state upholds the invariants. -/
def OutUpholds (Q : Prop) (s : State) (o : Out) : Prop := ∀ t, o = .next t → Upholds Q s t

theorem Upholds.refl (s : State) : Upholds Q s s := ⟨id, id, id, id, fun _ => .of_same rfl⟩

theorem Upholds.trans {s t u : State} (h : Upholds Q s t) (g : Upholds Q t u) : Upholds Q s u :=
  ⟨g.memory ∘ h.memory, g.fixed ∘ h.fixed, g.mode ∘ h.mode, g.caches ∘ h.caches, fun q =>
    ⟨(g.outputs q).fault ∘ (h.outputs q).fault, (g.outputs q).recovery ∘ (h.outputs q).recovery⟩⟩

theorem Upholds.mono {P : Prop} {s t : State} (h : Upholds P s t) (f : Q → P) : Upholds Q s t :=
  { h with outputs := h.outputs ∘ f }

theorem OutUpholds.next {s t : State} (h : Upholds Q s t) : OutUpholds Q s (.next t) := by
  rintro _ ⟨rfl⟩
  exact h

theorem OutUpholds.refused {s : State} {r : Refusal} : OutUpholds Q s (.refused r) :=
  fun _ h => nomatch h

theorem OutUpholds.trans {s t : State} {o : Out} (h : Upholds Q s t) (g : OutUpholds Q t o) :
    OutUpholds Q s o := fun u hu => h.trans (g u hu)

/-! Single fields -/

/-- The registers with fixed bits. -/
def fixedRegs : List SysReg :=
  [.scr_el3, .hcr_el2, .rmr_el3, .vbar_el1, .vbar_el2, .vbar_el3, .fpcr]

theorem FixedBits.congr {s t : State} (h : ∀ q ∈ fixedRegs, t.get q = s.get q) (f : FixedBits s) :
    FixedBits t := by
  simp only [fixedRegs, List.forall_mem_cons] at h
  obtain ⟨h1, h2, h3, h4, h5, h6, h7, -⟩ := h
  exact
    { scr := h1 ▸ f.scr
      hcr := h2 ▸ f.hcr
      rmr := h3 ▸ f.rmr
      vbar1 := h4 ▸ f.vbar1
      vbar2 := h5 ▸ f.vbar2
      vbar3 := h6 ▸ f.vbar3
      fpcr := h7 ▸ f.fpcr }

theorem LegalMode.congr {s t : State} (h1 : t.pstate.nRW = s.pstate.nRW)
    (h2 : t.pstate.el = s.pstate.el) (h3 : t.pstate.sp = s.pstate.sp) (m : LegalMode s) :
    LegalMode t where
  aarch64 := h1.trans m.aarch64
  el0Stack h := h3.trans (m.el0Stack (h2 ▸ h))

theorem ExclusiveCaches.congr {c d : Caches} (h1 : d.l1d = c.l1d) (h2 : d.l2 = c.l2)
    (h : ExclusiveCaches c) : ExclusiveCaches d where
  once := h1 ▸ h.once
  disjoint := h1 ▸ h2 ▸ h.disjoint
  below := h1 ▸ h2 ▸ h.below

/-- States with the same memory, caches, system registers and mode. -/
theorem Upholds.of_same {s t : State} (hm : t.mem = s.mem) (hs : t.sys = s.sys)
    (hp : t.pstate.nRW = s.pstate.nRW ∧ t.pstate.el = s.pstate.el ∧ t.pstate.sp = s.pstate.sp)
    (h1 : t.cache.l1d = s.cache.l1d) (h2 : t.cache.l2 = s.cache.l2)
    (hr : t.ras = s.ras := by first | rfl | simp) : Upholds Q s t where
  memory := hm ▸ id
  fixed := FixedBits.congr fun q _ => State.get_congr hs q
  mode := LegalMode.congr hp.1 hp.2.1 hp.2.2
  caches := ExclusiveCaches.congr h1 h2
  outputs _ := .of_same hr

/-- A change of PSTATE that keeps the mode. -/
theorem Upholds.of_pstate (s : State) (p : PState) (hp : p.nRW = s.pstate.nRW ∧
    p.el = s.pstate.el ∧ p.sp = s.pstate.sp) (a : Word) :
    Upholds Q s { s with pc := a, pstate := p } := Upholds.of_same rfl rfl hp rfl rfl

theorem State.record_upholds (s : State) (e : MemEvent) : Upholds Q s (s.record e) :=
  Upholds.of_same rfl rfl ⟨rfl, rfl, rfl⟩ rfl rfl

theorem State.setMonitor_upholds (s : State) (m : Monitor) : Upholds Q s { s with monitor := m } :=
  Upholds.of_same rfl rfl ⟨rfl, rfl, rfl⟩ rfl rfl

theorem State.setIrq_upholds (s : State) (i : IrqLines) : Upholds Q s { s with irq := i } :=
  Upholds.of_same rfl rfl ⟨rfl, rfl, rfl⟩ rfl rfl

theorem State.pushReturn_upholds (s : State) (a : Word) : Upholds Q s (s.pushReturn a) :=
  Upholds.of_same rfl rfl ⟨rfl, rfl, rfl⟩ rfl rfl

theorem State.popReturn_upholds (s : State) : Upholds Q s s.popReturn :=
  Upholds.of_same rfl rfl ⟨rfl, rfl, rfl⟩ rfl rfl

/-- A write of a register without fixed bits. -/
theorem State.put_upholds (s : State) {r : SysReg} (v : Word) (h : r ∉ fixedRegs) :
    Upholds Q s (s.put r v) where
  memory := id
  fixed := FixedBits.congr fun q hq => by
    rw [State.get_put, if_neg]
    rintro rfl
    exact h hq
  mode := LegalMode.congr rfl rfl rfl
  caches := id
  outputs _ := .of_same rfl

/-- A change of the system registers that keeps those with fixed bits. -/
theorem Upholds.of_regs {s t : State} (hm : t.mem = s.mem) (hs : ∀ q ∈ fixedRegs, t.get q = s.get q)
    (hp : t.pstate = s.pstate) (hc : t.cache = s.cache)
    (hr : t.ras = s.ras := by first | rfl | simp) : Upholds Q s t where
  memory := hm ▸ id
  fixed := FixedBits.congr hs
  mode := LegalMode.congr (by rw [hp]) (by rw [hp]) (by rw [hp])
  caches := hc ▸ id
  outputs _ := .of_same hr

/-- A change of memory and the caches alone. -/
theorem Upholds.of_mem {s t : State} (hm : Memory.wf s.mem → Memory.wf t.mem) (hs : t.sys = s.sys)
    (hp : t.pstate = s.pstate) (hc : ExclusiveCaches s.cache → ExclusiveCaches t.cache)
    (hr : t.ras = s.ras := by first | rfl | simp) : Upholds Q s t where
  memory := hm
  fixed := FixedBits.congr fun q _ => State.get_congr hs q
  mode := LegalMode.congr (by rw [hp]) (by rw [hp]) (by rw [hp])
  caches := hc
  outputs _ := .of_same hr

/-- A write of a control register without fixed bits. -/
theorem State.control_upholds (s : State) {r : SysReg} (v : Word) (h : r ∉ fixedRegs) :
    Upholds Q s (s.putControl r v) :=
  (s.put_upholds v h).trans (Upholds.of_same rfl rfl ⟨rfl, rfl, rfl⟩ rfl rfl)

/-- A write through another view of a register without fixed bits. -/
theorem State.through_upholds (s : State) {r : SysReg} (via : Option SysReg) (v : Word)
    (h : r ∉ fixedRegs) : Upholds Q s (s.putThrough r via v) :=
  (s.put_upholds v h).trans (Upholds.of_same rfl rfl ⟨rfl, rfl, rfl⟩ rfl rfl)

/-- A change that a unit makes of a register without fixed bits. -/
theorem State.unit_upholds (s : State) {r : SysReg} (f : Word → Word) (h : r ∉ fixedRegs) :
    Upholds Q s (s.putByUnit r f) :=
  (s.put_upholds _ h).trans (Upholds.of_same rfl rfl ⟨rfl, rfl, rfl⟩ rfl rfl)

/-- What `tick` may change carries the invariants. -/
theorem Begins.upholds {s t : State} (h : Begins s t) : Upholds Q s t := by
  have hn : ∀ q ∈ fixedRegs, counted q = false := by decide
  have hm : t.mem = s.mem := by rw [h.eq]
  have hp : t.pstate = s.pstate := by rw [h.eq]
  have h1 : t.cache.l1d = s.cache.l1d := by rw [h.eq]
  have h2 : t.cache.l2 = s.cache.l2 := by rw [h.eq]
  exact
    { memory := hm ▸ id
      fixed := FixedBits.congr fun q hq => h.get q (hn q hq)
      mode := LegalMode.congr (by rw [hp]) (by rw [hp]) (by rw [hp])
      caches := ExclusiveCaches.congr h1 h2
      outputs := fun _ => ⟨h.fault, h.recovery⟩ }

theorem Ticks.upholds {s t : State} (h : Ticks s t) : Upholds Q s t := h.begins.upholds

/-! Exceptions -/

theorem State.syncTarget_ne (s : State) : s.syncTarget ≠ 0 := by
  unfold State.syncTarget
  split
  · split <;> decide
  · assumption

theorem State.debugTarget_ne (s : State) : s.debugTarget ≠ 0 := by
  unfold State.debugTarget
  split <;> decide

theorem State.abortTarget_ne (s : State) (st ext : Bool) : s.abortTarget st ext ≠ 0 := by
  unfold State.abortTarget
  split
  · split
    · decide
    · split
      · decide
      · exact s.syncTarget_ne
  · split
    · decide
    · exact s.syncTarget_ne

theorem State.asyncTarget_ne (s : State) (k : AsyncKind) : s.asyncTarget k ≠ 0 := by
  unfold State.asyncTarget
  split
  · decide
  · split
    · decide
    · split <;> decide

/-- An exception to a level above EL0 (R464). -/
theorem State.takeException_upholds (s : State) (e : Entry) (h : e.target ≠ 0) :
    Upholds Q s (s.takeException e) where
  memory := by rw [State.takeException_mem]; exact id
  fixed := FixedBits.congr fun q hq => by
    have hne : ∀ t : EL, ∀ q ∈ fixedRegs, q ≠ .hpfar_el2 ∧ q ≠ farOf t ∧ q ≠ esrOf t ∧
        q ≠ elrOf t ∧ q ≠ spsrOf t := by decide
    obtain ⟨n1, n2, n3, n4, n5⟩ := hne e.target q hq
    rw [State.takeException_get]
    simp [n1, n2, n3, n4, n5]
  mode _ := ⟨rfl, fun h0 => absurd h0 h⟩
  caches := by rw [State.takeException_cache]; exact fun h => h.of_eq rfl rfl
  outputs _ := .of_same (by simp)

theorem State.takeSync_upholds (s : State) {t : EL} (h : t ≠ 0) (ec : Nat) (iss : BitVec 25) :
    Upholds Q s (s.takeSync t ec iss) := s.takeException_upholds _ h

theorem State.undefined_upholds (s : State) : Upholds Q s s.undefined :=
  s.takeSync_upholds s.syncTarget_ne _ _

theorem State.takeAbort_upholds (s : State) (f st ext : Bool) (iss : BitVec 25) (va : Word)
    (ipa : BitVec 40) : Upholds Q s (s.takeAbort f st ext iss va ipa) :=
  s.takeException_upholds _ (s.abortTarget_ne _ _)

/-- `HCR_EL2.VSE` cleared (R461). -/
theorem State.clearVse_upholds (s : State) : Upholds Q s s.clearVse where
  memory := id
  fixed f :=
    have o : ∀ q ∈ fixedRegs, q ≠ .hcr_el2 → s.clearVse.get q = s.get q := fun q _ hq => by
      show (s.put .hcr_el2 _).get q = _
      rw [State.get_put, if_neg hq]
    { scr := by rw [o _ (by decide) (by decide)]; exact f.scr
      hcr := by
        show bit ((s.put .hcr_el2 _).get .hcr_el2) 31 = true
        rw [State.get_put_self]
        have := f.hcr
        unfold bit at this ⊢
        simp [withBit, this]
      rmr := by rw [o _ (by decide) (by decide)]; exact f.rmr
      vbar1 := by rw [o _ (by decide) (by decide)]; exact f.vbar1
      vbar2 := by rw [o _ (by decide) (by decide)]; exact f.vbar2
      vbar3 := by rw [o _ (by decide) (by decide)]; exact f.vbar3
      fpcr := by rw [o _ (by decide) (by decide)]; exact f.fpcr }
  mode := LegalMode.congr rfl rfl rfl
  caches := id
  outputs _ := .of_same rfl

theorem State.takeAsync_upholds (s : State) (k : AsyncKind) (ret : Word) :
    Upholds Q s (s.takeAsync k ret) := by
  have ht := s.asyncTarget_ne k
  cases k
  · exact s.takeException_upholds _ ht
  · exact s.takeException_upholds _ ht
  · exact (s.setIrq_upholds s.consumed.irq).trans (State.takeException_upholds _ _ ht)
  · exact s.takeException_upholds _ ht
  · exact s.takeException_upholds _ ht
  · exact s.clearVse_upholds.trans (State.takeException_upholds _ _ ht)

/-- A return from a level above EL0 keeps a legal mode (R467). -/
theorem State.exceptionReturn_upholds (s : State) (a : Word) :
    Upholds Q s (s.exceptionReturn a) where
  memory := by rw [State.exceptionReturn_mem]; exact id
  fixed := FixedBits.congr fun q _ => State.get_congr (State.exceptionReturn_sys s a) q
  mode m := by
    have hp : ∀ w, (s.returnPState w).nRW = false ∧
        ((s.returnPState w).el = 0 → (s.returnPState w).sp = false) := by
      intro w
      unfold State.returnPState
      split
      · exact ⟨m.aarch64, m.el0Stack⟩
      · rename_i h
        simp only [State.illegalReturn, Bool.or_eq_true, Bool.and_eq_true, not_or, not_and,
          beq_iff_eq, Bool.not_eq_true] at h
        exact ⟨h.1.1.1.1.2, fun h0 => h.1.1.2 h0⟩
    exact ⟨(hp _).1, (hp _).2⟩
  caches := by rw [State.exceptionReturn_cache]; exact fun h => h.of_eq rfl rfl
  outputs _ := .of_same (by simp [State.exceptionReturn])

/-! Advancing and memory -/

theorem State.advanceWith_upholds (s : State) {f : State → State} (h : ∀ t, Upholds Q t (f t)) :
    OutUpholds Q s (s.advanceWith f) := by
  intro t ht
  obtain ⟨-, rfl⟩ := State.advanceWith_next ht
  exact (Upholds.of_pstate s { s.pstate with btype := 0 } ⟨rfl, rfl, rfl⟩ (s.pc + 4)).trans (h _)

theorem State.writeMem_upholds (s : State) (k : Nat) (bs : List Byte) :
    Upholds Q s (s.writeMem k bs) :=
  Upholds.of_mem (fun h => Memory.wf_writeBytes _ h) rfl rfl fun h => h.of_eq rfl rfl

/-- Neither MPMM register has fixed bits, so a store to the utility bus upholds the invariants. -/
theorem State.utilityStore_upholds (s : State) (m : Mapped) (n : Nat) :
    Upholds Q s (s.utilityStore m n) :=
  Upholds.of_regs (by simp) (fun q hq => s.utilityStore_get m n
    (by rintro rfl; revert hq; decide) (by rintro rfl; revert hq; decide)) (by simp) (by simp)

theorem State.store_upholds (s : State) (m : Mapped) (bs : List Byte) :
    Upholds Q s (s.store m bs) := by
  unfold State.store
  split
  · exact s.utilityStore_upholds m _
  · rename_i h
    refine Upholds.of_mem (fun hm => Memory.wf_writeBytes _ hm) (by simp) (by simp) fun hc => ?_
    rw [← s.store_memory (by simpa using h)]
    exact State.store_exclusive hc m bs

theorem State.lineRead_upholds (s : State) (m : Mapped) : Upholds Q s (s.lineRead m) :=
  Upholds.of_same rfl rfl ⟨rfl, rfl, rfl⟩ rfl rfl

theorem State.loaded_upholds (s : State) (m : Mapped) : Upholds Q s (s.loaded m) := by
  obtain ⟨c, w, h⟩ := s.loaded_eq m
  exact Upholds.of_mem (by rw [h]; exact id) (by rw [h]) (by rw [h])
    fun hc => State.loaded_exclusive hc m

theorem State.asyncError_upholds (s : State) (m : Mapped) (n : Nat) :
    Upholds Q s (s.asyncError m n) := by
  obtain ⟨i, h⟩ := s.asyncError_eq m n
  rw [h]
  exact Upholds.of_same rfl rfl ⟨rfl, rfl, rfl⟩ rfl rfl

theorem State.ownStore_upholds (s : State) (pa : BitVec 40) (ns : Bool) :
    Upholds Q s (s.ownStore pa ns) := by
  obtain ⟨o, h, -⟩ := s.ownStore_eq pa ns
  rw [h]
  exact Upholds.of_same rfl rfl ⟨rfl, rfl, rfl⟩ rfl rfl

theorem State.setX_upholds (s : State) (r : Reg) (v : Word) : Upholds Q s (s.setX r v) :=
  Upholds.of_same (by simp) (by simp) (by simp) (by simp) (by simp)

theorem State.invalidateBlock_upholds (s : State) (b : Nat) (clean : Bool) :
    Upholds Q s (s.invalidateBlock b clean) := by
  have hs : (s.invalidateBlock b clean).sys = s.sys ∧
      (s.invalidateBlock b clean).pstate = s.pstate ∧
      (s.invalidateBlock b clean).ras = s.ras := by
    unfold State.invalidateBlock
    split
    · exact ⟨rfl, rfl, rfl⟩
    · split <;> exact ⟨rfl, rfl, rfl⟩
  refine Upholds.of_mem ?_ hs.1 hs.2.1 (fun hc => State.invalidateBlock_exclusive hc b clean) hs.2.2
  intro hm
  rcases s.invalidateBlock_mem b clean with h | ⟨bs, -, h⟩ <;> rw [h]
  · exact hm
  · exact Memory.wf_writeBytes _ hm

/-! Data accesses -/

/-- An access so far upholds the invariants. -/
def AccUpholds (Q : Prop) (s : State) (a : Acc) : Prop :=
  match a with
  | .ok t _ => Upholds Q s t
  | .mmu t => Upholds Q s t
  | .stop o => OutUpholds Q s o

theorem State.translate_upholds {s s1 : State} {va : Word} {k : AccessKind} {m : Mapped}
    (h : s.translate va k = .ok s1 m) : Upholds Q s s1 := by
  have c := State.translate_same h
  exact Upholds.of_mem (State.translate_wf h) c.sys c.pstate (State.translate_exclusive h) c.ras

/-- So does the state that a failed translation leaves. -/
theorem State.translate_fault_upholds {s s1 : State} {va : Word} {k : AccessKind} {f : MmuFault}
    (h : s.translate va k = .fault s1 f) : Upholds Q s s1 := by
  obtain ⟨bus, cache, rfl, hc⟩ := State.translate_fault h
  exact Upholds.of_mem id rfl rfl hc.exclusive

/-- A translation that is made ahead carries the invariants, and so does one that fails. -/
theorem State.translateAhead_upholds {s s1 : State} {va : Word} {k : AccessKind} {m : Mapped}
    (h : s.translateAhead va k = .ok s1 m) : Upholds Q s s1 := by
  obtain ⟨tlb, bus, cache, rfl, hc⟩ := State.translateAhead_ok h
  exact Upholds.of_mem id rfl rfl hc.exclusive

theorem State.translateAhead_fault_upholds {s s1 : State} {va : Word} {k : AccessKind} {f : MmuFault}
    (h : s.translateAhead va k = .fault s1 f) : Upholds Q s s1 := by
  obtain ⟨bus, cache, rfl, hc⟩ := State.translateFor_fault h
  exact Upholds.of_mem id rfl rfl hc.exclusive

theorem State.takeMmuFault_upholds (s : State) (f w cm : Bool) (va : Word) (e : MmuFault) :
    Upholds Q s (s.takeMmuFault f w cm va e) := by
  unfold State.takeMmuFault
  split <;> exact s.takeAbort_upholds _ _ _ _ _ _

theorem State.watchpointException_upholds (s : State) (r : Req) :
    Upholds Q s (s.watchpointException r) := s.takeException_upholds _ s.debugTarget_ne

theorem State.enterDebug_upholds (s : State) : Upholds Q s s.enterDebug :=
  Upholds.of_same rfl rfl ⟨rfl, rfl, rfl⟩ rfl rfl

theorem State.watchpointTaken_upholds (s : State) (r : Req) : Upholds Q s (s.watchpointTaken r) := by
  unfold State.watchpointTaken
  split
  · exact s.enterDebug_upholds
  · exact s.watchpointException_upholds r

theorem State.xlate_upholds (s : State) (r : Req) (k : AccessKind) : AccUpholds Q s (s.xlate r k) := by
  unfold State.xlate
  split
  · exact OutUpholds.refused
  · rename_i h
    have := State.translate_fault_upholds (Q := Q) h
    dsimp only
    split
    · refine OutUpholds.next ?_
      split
      · exact this.trans (State.watchpointTaken_upholds _ r)
      · exact this.trans (State.takeMmuFault_upholds _ _ _ _ _ _)
    · exact this.trans (State.takeMmuFault_upholds _ _ _ _ _ _)
  · rename_i h
    have := State.translate_upholds (Q := Q) h
    split
    · exact this.trans (State.takeMmuFault_upholds _ _ _ _ _ _)
    · exact this

theorem State.preCheck_upholds {s : State} {r : Req} {o : Out} (h : s.preCheck r = some o) :
    OutUpholds Q s o := by
  unfold State.preCheck at h
  split at h
  · cases h
    exact OutUpholds.refused
  · split at h
    · cases h
      exact OutUpholds.next (s.takeSync_upholds s.syncTarget_ne _ _)
    · split at h
      · cases h
        exact OutUpholds.next (s.takeAbort_upholds _ _ _ _ _ _)
      · cases h

theorem State.showPbha_upholds (s : State) (va : Word) (m : Mapped) :
    Upholds Q s (s.showPbha va m) := Upholds.of_same rfl rfl ⟨rfl, rfl, rfl⟩ rfl rfl

theorem State.afterXlate_upholds (s : State) (r : Req) (m : Mapped) :
    AccUpholds Q s (s.afterXlate r m) := by
  unfold State.afterXlate
  split
  · exact OutUpholds.refused
  · split
    · exact OutUpholds.next (s.takeAbort_upholds _ _ _ _ _ _)
    · split
      · exact OutUpholds.next (s.watchpointTaken_upholds r)
      · exact s.showPbha_upholds _ _

theorem AccUpholds.trans {s t : State} {a : Acc} (h : Upholds Q s t) (g : AccUpholds Q t a) :
    AccUpholds Q s a := by
  cases a with
  | ok u m => exact h.trans g
  | mmu u => exact h.trans g
  | stop o => exact OutUpholds.trans h g

theorem State.access_upholds (s : State) (r : Req) (k : AccessKind) :
    AccUpholds Q s (s.access r k) := by
  unfold State.access
  split
  · rename_i h
    exact State.preCheck_upholds h
  · have := s.xlate_upholds (Q := Q) r k
    generalize s.xlate r k = a at this ⊢
    cases a with
    | ok s1 m => exact AccUpholds.trans this (s1.afterXlate_upholds r m)
    | mmu t => exact this
    | stop o => exact this

theorem State.accessBoth_upholds (s : State) (r : Req) : AccUpholds Q s (s.accessBoth r) := by
  unfold State.accessBoth
  split
  · rename_i h
    exact State.preCheck_upholds h
  · have h1 := s.xlate_upholds (Q := Q) r .read
    generalize s.xlate r .read = a at h1 ⊢
    cases a with
    | mmu t => exact h1
    | stop o => exact h1
    | ok s1 m =>
      have h2 := s1.xlate_upholds (Q := Q) r .write
      dsimp only
      generalize s1.xlate r .write = b at h2 ⊢
      cases b with
      | mmu t => exact AccUpholds.trans h1 h2
      | stop o => exact OutUpholds.trans h1 h2
      | ok s2 m2 => exact AccUpholds.trans (Upholds.trans h1 h2) (s2.afterXlate_upholds r m2)

theorem Acc.finish_upholds {s : State} {a : Acc} {f : State → Mapped → Out} (h : AccUpholds Q s a)
    (hf : ∀ t m, Upholds Q s t → OutUpholds Q t (f t m)) : OutUpholds Q s (a.finish f) := by
  cases a with
  | ok t m => exact OutUpholds.trans h (hf t m h)
  | mmu t => exact OutUpholds.next h
  | stop o => exact h

/-! Exclusives and atomics -/

theorem State.syncExternalAbort_upholds (s : State) (r : Req) : Upholds Q s (s.syncExternalAbort r) :=
  s.takeAbort_upholds _ _ _ _ _ _

theorem State.setXData_upholds (s : State) (r : Reg) (n : Nat) (v : Data) :
    Upholds Q s (s.setXData r n v) := s.setX_upholds _ _

theorem State.loadExclusive_upholds (s : State) (n : Nat) (acq : Bool) (rn : Reg)
    (put : State → Data → State) (hp : ∀ t v, Upholds Q t (put t v)) :
    OutUpholds Q s (s.loadExclusive n acq rn put) := by
  unfold State.loadExclusive
  refine Acc.finish_upholds (s.access_upholds _ _) fun t m _ => ?_
  split
  · exact OutUpholds.refused
  · split
    · exact OutUpholds.next (t.syncExternalAbort_upholds _)
    · refine t.advanceWith_upholds fun u => ?_
      unfold State.doLoadExclusive
      refine Upholds.trans ?_ (hp _ _)
      exact (u.asyncError_upholds m _).trans ((State.loaded_upholds _ m).trans
        ((State.record_upholds _ _).trans (State.setMonitor_upholds _ _)))

theorem loadExcl_upholds (sz : Size) (acq : Bool) (rt rn : Reg) (s : State) :
    OutUpholds Q s (loadExcl sz acq rt rn s) :=
  s.loadExclusive_upholds _ _ _ _ fun t _ => t.setXData_upholds _ _ _

theorem loadExclPair_upholds (wide acq : Bool) (rt rt2 rn : Reg) (s : State) :
    OutUpholds Q s (loadExclPair wide acq rt rt2 rn s) := by
  unfold loadExclPair
  split
  · exact OutUpholds.refused
  · exact s.loadExclusive_upholds _ _ _ _ fun t _ =>
      (t.setXData_upholds _ _ _).trans (State.setXData_upholds _ _ _ _)

theorem State.doStoreExclusive_upholds (s : State) (m : Mapped) (n : Nat) (rel : Bool) (rs : Reg)
    (d : Data) : Upholds Q s (s.doStoreExclusive m n rel rs d) := by
  have last (t : State) (b : Nat) : Upholds Q t { t.openMonitor with exclBudget := b } :=
    Upholds.of_same rfl rfl ⟨rfl, rfl, rfl⟩ rfl rfl
  unfold State.doStoreExclusive
  dsimp only
  split
  · exact (s.asyncError_upholds m _).trans ((State.store_upholds _ m _).trans
      ((State.record_upholds _ _).trans ((State.setX_upholds _ rs 0).trans (last _ _))))
  · exact (s.setX_upholds rs 1).trans (last _ _)

theorem State.storeExclusive_upholds (s : State) (n : Nat) (rel : Bool) (rs rn : Reg) (d : Data) :
    OutUpholds Q s (s.storeExclusive n rel rs rn d) := by
  unfold State.storeExclusive
  dsimp only
  have h := s.access_upholds (Q := Q) (s.baseReq rn n false true) .write
  generalize s.access (s.baseReq rn n false true) .write = a at h ⊢
  cases a with
  | stop o => exact h
  | mmu t =>
    dsimp only
    split
    · unfold State.failStoreExclusive
      split
      · exact OutUpholds.next (s.watchpointTaken_upholds _)
      · exact s.advanceWith_upholds fun u => (u.setX_upholds rs 1).trans
          (State.setMonitor_upholds _ _)
    · exact OutUpholds.next h
  | ok s1 m =>
    dsimp only
    split
    · exact OutUpholds.refused
    · exact OutUpholds.trans h (s1.advanceWith_upholds fun u => u.doStoreExclusive_upholds _ _ _ _ _)

theorem storeExcl_upholds (sz : Size) (rel : Bool) (rs rt rn : Reg) (s : State) :
    OutUpholds Q s (storeExcl sz rel rs rt rn s) := by
  unfold storeExcl
  split
  · exact OutUpholds.refused
  · exact s.storeExclusive_upholds _ _ _ _ _

theorem storeExclPair_upholds (wide rel : Bool) (rs rt rt2 rn : Reg) (s : State) :
    OutUpholds Q s (storeExclPair wide rel rs rt rt2 rn s) := by
  unfold storeExclPair
  split
  · exact OutUpholds.refused
  · exact s.storeExclusive_upholds _ _ _ _ _

theorem State.atomicStore_upholds (s : State) (m : Mapped) (n : Nat) (v : Data) :
    Upholds Q s (s.atomicStore m n v) :=
  (s.asyncError_upholds m _).trans ((State.lineRead_upholds _ m).trans
    ((State.store_upholds _ m _).trans (State.ownStore_upholds _ _ _)))

theorem State.atomicGate_upholds (s : State) (r : Req) (m : Mapped) {go : Out}
    (h : OutUpholds Q s go) : OutUpholds Q s (s.atomicGate r m go) := by
  unfold State.atomicGate
  split
  · exact h
  · split
    · exact OutUpholds.next (s.syncExternalAbort_upholds r)
    · exact s.advanceWith_upholds fun t => t.setIrq_upholds _

theorem atomicUpdate_upholds (op : AtomicOp) (sz : Size) (acq rel : Bool) (rs rt rn : Reg)
    (s : State) : OutUpholds Q s (atomicUpdate op sz acq rel rs rt rn s) := by
  unfold atomicUpdate
  refine Acc.finish_upholds (s.accessBoth_upholds _) fun t m _ => ?_
  refine t.atomicGate_upholds _ m (t.advanceWith_upholds fun u => ?_)
  unfold State.doAtomic
  exact (u.atomicStore_upholds m _ _).trans
    ((State.record_upholds _ _).trans (State.setXData_upholds _ rt _ _))

theorem State.settled_upholds {s s1 s2 : State} (h1 : Upholds Q s s1) (h2 : Upholds Q s s2)
    (w : Bool) : Upholds Q s (s1.settled s2 w) := by
  cases w
  · exact
      { memory := h1.memory
        fixed := fun f => FixedBits.congr (s := s2) (fun _ _ => rfl) (h2.fixed f)
        mode := fun f => LegalMode.congr (s := s2) rfl rfl rfl (h2.mode f)
        caches := h1.caches
        outputs := fun q => ⟨(h2.outputs q).fault, (h2.outputs q).recovery⟩ }
  · exact
      { memory := h2.memory
        fixed := fun f => FixedBits.congr (s := s2) (fun _ _ => rfl) (h2.fixed f)
        mode := fun f => LegalMode.congr (s := s2) rfl rfl rfl (h2.mode f)
        caches := h2.caches
        outputs := fun q => ⟨(h2.outputs q).fault, (h2.outputs q).recovery⟩ }

theorem State.compareSwap_upholds (s : State) (n : Nat) (acq rel : Bool) (rn : Reg)
    (cmp new : Data) (put : State → Data → State) (hp : ∀ t v, Upholds Q t (put t v)) :
    OutUpholds Q s (s.compareSwap n acq rel rn cmp new put) := by
  have go : ∀ (r : Req) (t : State) (m : Mapped), OutUpholds Q t (t.atomicGate r m
      (t.advanceWith fun u => u.doCompareSwap m n acq rel cmp new put)) := by
    intro r t m
    refine t.atomicGate_upholds _ m (t.advanceWith_upholds fun u => ?_)
    unfold State.doCompareSwap
    dsimp only
    refine Upholds.trans ?_ (hp _ _)
    refine Upholds.trans ?_ (State.record_upholds _ _)
    split
    · exact u.atomicStore_upholds m _ _
    · exact (u.asyncError_upholds m _).trans (State.loaded_upholds _ m)
  unfold State.compareSwap
  dsimp only
  split
  · rename_i h
    exact State.preCheck_upholds h
  · have h1 := s.xlate_upholds (Q := Q) (s.baseReq rn n true true) .read
    generalize s.xlate (s.baseReq rn n true true) .read = a at h1 ⊢
    cases a with
    | mmu t => exact OutUpholds.next h1
    | stop o => exact h1
    | ok s1 m =>
      have h2 := s1.xlate_upholds (Q := Q) (s.baseReq rn n true true) .write
      dsimp only
      generalize s1.xlate (s.baseReq rn n true true) .write = b at h2 ⊢
      cases b with
      | ok s2 m2 =>
        have h12 : Upholds Q s s2 := Upholds.trans h1 h2
        exact OutUpholds.trans (State.settled_upholds h1 h12 _)
          (Acc.finish_upholds (State.afterXlate_upholds _ _ m2) fun t m _ => go _ t m)
      | mmu t =>
        dsimp only
        split
        · exact OutUpholds.next (Upholds.trans h1 h2)
        · exact OutUpholds.trans h1
            (Acc.finish_upholds (State.afterXlate_upholds _ _ m) fun t m _ => go _ t m)
      | stop o =>
        dsimp only
        split
        · exact OutUpholds.trans h1 h2
        · exact OutUpholds.trans h1
            (Acc.finish_upholds (State.afterXlate_upholds _ _ m) fun t m _ => go _ t m)

theorem casMeaning_upholds (sz : Size) (acq rel : Bool) (rs rt rn : Reg) (s : State) :
    OutUpholds Q s (casMeaning sz acq rel rs rt rn s) :=
  s.compareSwap_upholds _ _ _ _ _ _ _ fun t _ => t.setXData_upholds _ _ _

theorem caspMeaning_upholds (wide acq rel : Bool) (rs rt rn : Reg) (s : State) :
    OutUpholds Q s (caspMeaning wide acq rel rs rt rn s) := by
  unfold caspMeaning
  dsimp only
  split
  · exact OutUpholds.next s.undefined_upholds
  · exact s.compareSwap_upholds _ _ _ _ _ _ _ fun t _ =>
      (t.setXData_upholds _ _ _).trans (State.setXData_upholds _ _ _ _)

/-! Branches -/

theorem State.branchTo_upholds (s : State) (a : Word) (b : BitVec 2) :
    Upholds Q s (s.branchTo a b) :=
  Upholds.of_same (by simp) (by simp) (by simp) (by simp) (by simp) (by simp [State.branchTo])

theorem State.call_upholds (s : State) (a : Word) (b : BitVec 2) : OutUpholds Q s (s.call a b) := by
  unfold State.call
  split
  · exact OutUpholds.next ((s.setX_upholds 30 _).trans
      ((State.pushReturn_upholds _ _).trans (State.branchTo_upholds _ _ _)))
  · exact OutUpholds.refused

theorem State.return_upholds (s : State) (a : Word) : OutUpholds Q s (s.return a) :=
  OutUpholds.next (s.popReturn_upholds.trans (State.branchTo_upholds _ _ _))

theorem State.withAuth_upholds (s : State) (k : Bool) (p w : Word) {go : Word → Out}
    (h : ∀ a, OutUpholds Q s (go a)) : OutUpholds Q s (s.withAuth k p w go) := by
  unfold State.withAuth
  split
  · exact h _
  · exact OutUpholds.next (s.takeSync_upholds s.syncTarget_ne _ _)

theorem returnAuth_upholds (k : Bool) (s : State) : OutUpholds Q s (returnAuth k s) := by
  unfold returnAuth
  split
  · exact OutUpholds.next s.undefined_upholds
  split
  · exact OutUpholds.next (s.takeSync_upholds (by decide) _ _)
  · exact s.withAuth_upholds _ _ _ fun a => OutUpholds.next (s.exceptionReturn_upholds a)

end Sys2Proof.Machine
end

