-- ==== Sys2Proof/Laws/KeepsSystem.lean ====
section
/-! SUPPORT. What the hints, the register accesses and the cache instructions do to the invariants
of Safety.lean; and so every instruction. -/

-- One proof at a time: every thread takes memory of its own.
set_option Elab.async false

namespace Sys2Proof.Machine

variable {Q : Prop}

/-! Hints and barriers -/

theorem State.sleepTrap_upholds {s t : State} {wfe : Bool} (h : s.sleepTrap wfe = some t) :
    Upholds Q s t := by
  have up : ∀ l : EL, l ≠ 0 → ∀ w, Upholds Q s (s.takeSync l 1 w) := fun l hl w =>
    s.takeSync_upholds hl _ _
  have sync := s.syncTarget_ne
  unfold State.sleepTrap at h
  dsimp only at h
  generalize trapCond ||| _ = w at h
  generalize (decide (s.el < 3) && _) = a at h
  generalize s.hcrBelow _ = b at h
  generalize (decide (s.el = 0) && _) = c at h
  revert h
  cases a <;> cases b <;> cases c <;> intro h <;> cases h
  all_goals first | exact up _ (by decide) _ | exact up _ sync _

theorem State.enterSleep_upholds (s : State) (m : LowPower) (b : Bool) :
    Upholds Q s (s.enterSleep m b) := Upholds.of_same rfl rfl ⟨rfl, rfl, rfl⟩ rfl rfl

theorem execWfe_upholds (s : State) : OutUpholds Q s (execWfe s) := by
  unfold execWfe
  split
  · exact s.advanceWith_upholds fun t => Upholds.of_same rfl rfl ⟨rfl, rfl, rfl⟩ rfl rfl
  · split
    · rename_i h
      exact OutUpholds.next (State.sleepTrap_upholds h)
    · exact OutUpholds.next (s.enterSleep_upholds _ _)

theorem execWfi_upholds (s : State) : OutUpholds Q s (execWfi s) := by
  unfold execWfi
  split
  · exact OutUpholds.next (Upholds.of_same rfl rfl ⟨rfl, rfl, rfl⟩ rfl rfl)
  · split
    · exact s.advanceWith_upholds fun t => t.record_upholds _
    · split
      · rename_i h
        exact OutUpholds.next (State.sleepTrap_upholds h)
      · exact OutUpholds.next (s.enterSleep_upholds _ _)

theorem State.deferSError_upholds (s : State) : Upholds Q s s.deferSError := by
  unfold State.deferSError
  split
  · exact (s.setIrq_upholds s.consumed.irq).trans (State.put_upholds _ _ (by decide))
  · exact Upholds.refl s

theorem State.deferVirtual_upholds (s : State) : Upholds Q s s.deferVirtual := by
  unfold State.deferVirtual
  split
  · exact s.clearVse_upholds.trans (State.put_upholds _ _ (by decide))
  · exact Upholds.refl s

theorem execEsb_upholds (s : State) : OutUpholds Q s (execEsb s) := by
  unfold execEsb
  split
  · exact OutUpholds.next ((s.record_upholds _).trans (State.takeAsync_upholds _ _ _))
  · split
    · exact OutUpholds.next (s.deferSError_upholds.trans
        ((State.record_upholds _ _).trans (State.takeAsync_upholds _ _ _)))
    · exact s.advanceWith_upholds fun t => t.deferSError_upholds.trans
        ((State.deferVirtual_upholds _).trans (State.record_upholds _ _))

theorem State.contextSync_upholds (s : State) : Upholds Q s s.contextSync :=
  Upholds.of_same rfl rfl ⟨rfl, rfl, rfl⟩ rfl rfl

theorem State.doRamIndex_upholds (s : State) (w : Word) : Upholds Q s (s.doRamIndex w) := by
  obtain ⟨v, h⟩ := s.doRamIndex_same w
  refine Upholds.of_regs (by rw [h]) (fun q hq => ?_) (by rw [h]) (by rw [h]) (by rw [h])
  rw [State.doRamIndex_get]
  have : ∀ q ∈ fixedRegs, ramDataRegs.find? (fun p => p.1 == q) = none := by decide
  rw [this q hq]

theorem execRamindex_upholds (rt : Reg) (s : State) : OutUpholds Q s (execRamindex rt s) := by
  unfold execRamindex
  split
  · exact s.advanceWith_upholds fun t => t.doRamIndex_upholds _
  · exact OutUpholds.next s.undefined_upholds

/-! System registers -/

theorem State.sysGate_upholds {s t : State} {r : SysReg} {e : SysEnc} {rt : Reg} {read : Bool}
    (h : s.sysGate r e rt read = some t) : Upholds Q s t := by
  have tr : ∀ {o : Option EL} {f : EL → State}, (∀ l, o = some l → l ≠ 0) →
      (∀ l, l ≠ 0 → Upholds Q s (f l)) → o.map f = some t → Upholds Q s t := by
    intro o f ho hf hm
    cases o with
    | none => cases hm
    | some l =>
      cases hm
      exact hf l (ho l rfl)
  have sync := s.syncTarget_ne
  have fp : ∀ l, s.fpTrap = some l → l ≠ 0 := by
    intro l hl
    unfold State.fpTrap at hl
    dsimp only at hl
    repeat' split at hl
    all_goals cases hl
    all_goals first | decide | exact sync
  have sve : ∀ l, s.sveTrap = some l → l ≠ 0 := by
    intro l hl
    unfold State.sveTrap at hl
    dsimp only at hl
    repeat' split at hl
    all_goals cases hl
    all_goals first | decide | exact sync
  have amu : ∀ l, s.amuTrap = some l → l ≠ 0 := by
    intro l hl
    unfold State.amuTrap at hl
    repeat' split at hl
    all_goals cases hl
    all_goals first | decide | exact sync
  have lev : ∀ l, s.trapLevel r = some l → l ≠ 0 := by
    intro l hl
    unfold State.trapLevel State.mdcrTrap State.impTrap at hl
    repeat' split at hl
    all_goals try cases hl
    all_goals first
      | decide
      | exact sync
      | (rename_i hm; repeat' split at hm
         all_goals try cases hm
         all_goals decide)
  unfold State.sysGate at h
  split at h
  · cases h
    exact s.undefined_upholds
  · split at h
    · rename_i l hl
      cases h
      refine s.takeSync_upholds (amu l ?_) _ _
      split at hl
      · exact hl
      · cases hl
    · split at h
      · cases h
        exact s.undefined_upholds
      · split at h
        · exact tr fp (fun l hl => s.takeSync_upholds hl _ _) h
        · exact tr sve (fun l hl => s.takeSync_upholds hl _ _) h
        · exact tr lev (fun l hl => s.takeSync_upholds hl _ _) h

/-! The GIC CPU interface -/

theorem State.setGic_upholds (s : State) (g : GicIface) : Upholds Q s { s with gic := g } :=
  Upholds.of_same rfl rfl ⟨rfl, rfl, rfl⟩ rfl rfl

theorem listRegs_free : ∀ r ∈ listRegs, r ∉ fixedRegs := by decide

/-- The register that a search among the list registers gives is one of them. -/
theorem State.highestVirt_mem {s : State} {l : List SysReg} {r : SysReg}
    (h : s.highestVirt l = some r) : r ∈ l := by
  induction l with
  | nil => cases h
  | cons q rest ih =>
    rw [State.highestVirt] at h
    split at h
    · rename_i q' hq
      split at h
      · cases h; exact List.mem_cons_of_mem _ (ih hq)
      · cases h; exact List.mem_cons_self
    · cases h; exact List.mem_cons_self

theorem virtActive_free (g0 : Bool) : virtActive g0 ∉ fixedRegs := by
  cases g0 <;> decide

theorem State.acknowledge_upholds (s : State) (g0 : Bool) : Upholds Q s (s.acknowledge g0) := by
  unfold State.acknowledge
  split
  · exact s.setGic_upholds _
  · exact .refl s

theorem State.virtAcknowledge_upholds (s : State) (g0 : Bool) :
    Upholds Q s (s.virtAcknowledge g0) := by
  unfold State.virtAcknowledge
  split
  · rename_i r hr
    have hm := List.mem_of_mem_filter (State.highestVirt_mem hr)
    exact (s.unit_upholds _ (listRegs_free r hm)).trans
      (State.unit_upholds _ _ (virtActive_free g0))
  · exact .refl s

theorem State.afterRead_upholds (s : State) (r : SysReg) : Upholds Q s (s.afterRead r) := by
  have db (d : DebugUnit) : Upholds Q s { s with dbg := d } :=
    Upholds.of_same rfl rfl ⟨rfl, rfl, rfl⟩ rfl rfl
  have g : Upholds Q s (s.afterGicRead r) := by
    unfold State.afterGicRead
    repeat' split
    all_goals first
      | with_reducible exact s.virtAcknowledge_upholds _
      | with_reducible exact s.acknowledge_upholds _
      | with_reducible exact .refl s
  unfold State.afterRead
  split
  · exact db _
  · exact db _
  · split
    · exact g
    · exact .refl s

theorem State.virtDeactivate_upholds (s : State) {r : SysReg} (h : r ∉ fixedRegs) :
    Upholds Q s (s.virtDeactivate r) := by
  have hp := s.control_upholds (Q := Q) (withBit (s.get r) 63 false) h
  unfold State.virtDeactivate
  dsimp only
  split
  · exact hp.trans (State.setGic_upholds _ _)
  · exact hp

theorem State.virtFind_free {s : State} {id : Word} {p : Word → Bool} {r : SysReg}
    (h : s.virtFind id p = some r) : r ∉ fixedRegs :=
  listRegs_free r (List.mem_of_find?_eq_some h)

theorem State.virtEnd_upholds (s : State) (g0 : Bool) (w : Word) : Upholds Q s (s.virtEnd g0 w) := by
  have hp := s.through_upholds (Q := Q) (some (if g0 then .icc_eoir0_el1 else .icc_eoir1_el1))
    (dropPriority (s.get (virtActive g0))) (virtActive_free g0)
  unfold State.virtEnd
  dsimp only
  split
  · exact hp
  · split
    · rename_i hf
      exact hp.trans (State.virtDeactivate_upholds _ (State.virtFind_free hf))
    · exact hp

theorem State.writeVirtual_upholds (s : State) (r : SysReg) (w : Word) :
    Upholds Q s (s.writeVirtual r w) := by
  unfold State.writeVirtual
  split
  all_goals first
    | with_reducible exact s.virtEnd_upholds _ _
    | with_reducible exact s.control_upholds _ (by decide)
    | with_reducible exact s.through_upholds _ _ (by decide)
    | with_reducible exact .refl s
    | (split
       · rename_i hf
         exact s.virtDeactivate_upholds (State.virtFind_free hf)
       · exact .refl s)

theorem State.endInterrupt_upholds (s : State) (g0 : Bool) (w : Word) :
    Upholds Q s (s.endInterrupt g0 w) := s.setGic_upholds _

/-- The Non-secure copies have no fixed bits. -/
theorem State.banked_free (s : State) {r : SysReg} (h : r ∉ fixedRegs) :
    s.banked r ∉ fixedRegs := by
  unfold State.banked
  split
  · split <;> first | decide | exact h
  · exact h

theorem State.writeGic_upholds (s : State) (r : SysReg) (w : Word) (h : r.info.group = .gic) :
    Upholds Q s (s.writeGic r w) := by
  have hr : r ∉ fixedRegs := by
    have : ∀ q ∈ fixedRegs, q.info.group ≠ .gic := by decide
    exact fun hm => this r hm h
  unfold State.writeGic
  split
  · exact s.writeVirtual_upholds r w
  · split
    all_goals first
      | with_reducible exact s.endInterrupt_upholds _ _
      | exact s.setGic_upholds _
      | with_reducible exact s.control_upholds _ (by decide)
      | with_reducible exact s.control_upholds _ hr
      | exact s.control_upholds _ (s.banked_free hr)

theorem State.doMrs_upholds (s : State) (r : SysReg) (rt : Reg) : Upholds Q s (s.doMrs r rt) :=
  (s.afterRead_upholds r).trans (State.setX_upholds _ _ _)

/-- A write of a register with its legal value (R316). -/
theorem State.putThrough_upholds (s : State) (r : SysReg) (via : Option SysReg) (w : Word) :
    Upholds Q s (s.putThrough r via (s.legalise r w)) := by
  by_cases h : r ∈ fixedRegs
  · have o : ∀ q, q ≠ r → (s.putThrough r via (s.legalise r w)).get q = s.get q := fun q hq => by
      show (s.put r _).get q = _
      rw [State.get_put, if_neg hq]
    have e : (s.putThrough r via (s.legalise r w)).get r = s.legalise r w :=
      State.get_put_self _ _ _
    refine ⟨id, fun f => ?_, LegalMode.congr rfl rfl rfl, id, fun _ => .of_same rfl⟩
    have b : ∀ i, (w ||| (1#64 <<< i)).getLsbD i = decide (i < 64) := by
      intro i
      rw [BitVec.getLsbD_or, BitVec.getLsbD_shiftLeft]
      by_cases hi : i < 64
      · simp [hi]
      · simp [hi, BitVec.getLsbD_of_ge w i (by omega)]
    have m : ∀ v : Word, w &&& ~~~v &&& v = 0 := by
      intro v
      apply BitVec.eq_of_getLsbD_eq
      intro i hi
      simp only [BitVec.getLsbD_and, BitVec.getLsbD_not, hi, decide_true, Bool.true_and]
      cases v.getLsbD i <;> simp
    have f1 := f.scr
    have f2 := f.hcr
    have f3 := f.rmr
    have f4 := f.vbar1
    have f5 := f.vbar2
    have f6 := f.vbar3
    have f7 := f.fpcr
    simp only [fixedRegs, List.mem_cons, List.not_mem_nil, or_false] at h
    rcases h with rfl | rfl | rfl | rfl | rfl | rfl | rfl
    all_goals
      constructor
      all_goals first
        | (rw [o _ (by decide)]; assumption)
        | rw [e]
    · exact b 10
    · exact b 31
    · show ((w &&& 2) ||| 1#64).getLsbD 0 = true
      simp
    all_goals exact m _
  · refine Upholds.of_regs rfl (fun q hq => ?_) rfl rfl
    show (s.put r _).get q = _
    rw [State.get_put, if_neg]
    rintro rfl
    exact h hq

theorem State.putControl_upholds (s : State) (r : SysReg) (w : Word) :
    Upholds Q s (s.putControl r (s.legalise r w)) := s.putThrough_upholds r (some r) w

theorem State.recordError_upholds (s : State) (k : ErrorKind) : Upholds Q s (s.recordError k) :=
  (s.recordError_ticks k).upholds

/-- A change of the RAS unit alone. -/
theorem State.setRas_upholds (s : State) (r : RasUnit) (h : Q → StaysRaised s { s with ras := r }) :
    Upholds Q s { s with ras := r } :=
  ⟨id, FixedBits.congr fun _ _ => rfl, LegalMode.congr rfl rfl rfl, id, h⟩

theorem State.injectError_upholds (s : State) (w : Word) : Upholds Q s (s.injectError w) := by
  unfold State.injectError
  split
  · exact s.setRas_upholds _ fun _ => ⟨id, id⟩
  · exact Upholds.refl s

/-- A write of `ERXSTATUS_EL1` may lower the outputs (R486). -/
theorem State.writeErrStatus_upholds (s : State) (w : Word) :
    Upholds False s (s.writeErrStatus w) := by
  have h1 : Upholds False s (s.put .erxstatus_el1 (s.get .erxstatus_el1 &&& ~~~w)) :=
    s.put_upholds _ (by decide)
  unfold State.writeErrStatus
  dsimp only
  split
  · exact h1
  · exact h1.trans (State.setRas_upholds _ _ False.elim)

theorem State.writeInjectCtl_upholds (s : State) (w : Word) : Upholds Q s (s.writeInjectCtl w) := by
  have h1 : Upholds Q s (s.putControl .erxpfgctl_el1 w) := s.control_upholds _ (by decide)
  unfold State.writeInjectCtl
  dsimp only
  split
  · exact h1
  · exact h1.trans (State.injectError_upholds _ _)

theorem State.foldl_zero_upholds (l : List SysReg) (via : Option SysReg)
    (h : ∀ r ∈ l, r ∉ fixedRegs) : ∀ s : State,
    Upholds Q s (l.foldl (fun t r => t.putThrough r via 0) s) := by
  induction l with
  | nil => exact Upholds.refl
  | cons r l ih =>
    intro s
    exact (s.through_upholds via 0 (h r List.mem_cons_self)).trans
      (ih (fun q hq => h q (List.mem_cons_of_mem _ hq)) _)

theorem State.writePmcr_upholds (s : State) (w : Word) : Upholds Q s (s.writePmcr w) := by
  have h1 : Upholds Q s (s.putControl .pmcr_el0 (s.legalise .pmcr_el0 w)) :=
    s.control_upholds _ (by decide)
  have h2 := State.foldl_zero_upholds (Q := Q) pmevcntrs (some .pmcr_el0) (by decide)
    (s.putControl .pmcr_el0 (s.legalise .pmcr_el0 w))
  have h3 : ∀ t : State, Upholds Q t (t.putThrough .pmccntr_el0 (some .pmcr_el0) 0) := fun t =>
    t.through_upholds _ _ (by decide)
  unfold State.writePmcr
  dsimp only
  generalize pmevcntrs.foldl (fun t r => t.putThrough r (some .pmcr_el0) 0)
    (s.putControl .pmcr_el0 (s.legalise .pmcr_el0 w)) = u at h2 ⊢
  cases bit w 1 <;> cases bit w 2
  · exact h1
  · exact h1.trans (h3 _)
  · exact h1.trans h2
  · exact h1.trans (h2.trans (h3 _))

/-- A selected counter or event type register has no fixed bits. -/
theorem State.selected_free {s : State} {l : List SysReg} {c : SysReg}
    (hl : ∀ r ∈ l, r ∉ fixedRegs) (h : s.selected l = some c) : c ∉ fixedRegs := by
  unfold State.selected at h
  dsimp only at h
  split at h
  · exact hl c (List.mem_of_getElem? h)
  · cases h

/-- A write of a register; one of `SPSel` not at EL0 (R316). -/
theorem State.writeSys_upholds (s : State) (r : SysReg) (w : Word)
    (hr : r = .spsel → s.pstate.el ≠ 0) (hq : Q → r ≠ .erxstatus_el1) :
    Upholds Q s (s.writeSys r w) := by
  have put : ∀ q v, q ∉ fixedRegs → Upholds Q s (s.put q v) := fun q v h => s.put_upholds v h
  have con : ∀ q v, q ∉ fixedRegs → Upholds Q s (s.putControl q v) := fun q v h =>
    s.control_upholds v h
  have thr : ∀ q via v, q ∉ fixedRegs → Upholds Q s (s.putThrough q via v) := fun q via v h =>
    s.through_upholds via v h
  have other : ∀ t : State, t.mem = s.mem → t.sys = s.sys → t.pstate = s.pstate →
      t.cache = s.cache → t.ras = s.ras → Upholds Q s t := fun t h1 h2 h3 h4 h5 =>
    Upholds.of_same h1 h2 (by rw [h3]; exact ⟨rfl, rfl, rfl⟩) (by rw [h4]) (by rw [h4]) h5
  have count : ∀ (t : State) (n : Nat),
      Upholds Q t { t with ras := { t.ras with countdown := n } } := fun t n =>
    t.setRas_upholds _ fun _ => ⟨id, id⟩
  have tval : ∀ q, Upholds Q s (s.writeTimerVal q w) := by
    intro q
    unfold State.writeTimerVal timerOf
    split
    · rename_i h
      split at h <;> cases h <;> exact thr _ _ _ (by decide)
    · exact Upholds.refl s
  have view : ∀ q, q ≠ .spsel → Upholds Q s { s with pstate := writePStateView s.pstate q w } := by
    intro q hq
    refine Upholds.of_pstate s _ ?_ s.pc
    unfold writePStateView
    split <;> first | exact ⟨rfl, rfl, rfl⟩ | exact absurd rfl hq
  have sel : ∀ (l : List SysReg) (via : Option SysReg), (∀ r ∈ l, r ∉ fixedRegs) → Upholds Q s
      (match s.selected l with
        | some c => s.putThrough c via w
        | none => s) := by
    intro l via hl
    split
    · rename_i h
      exact thr _ _ _ (State.selected_free hl h)
    · exact Upholds.refl s
  unfold State.writeSys
  split
  all_goals first
    | exact other _ rfl rfl rfl rfl rfl
    | exact view _ (by decide)
    | exact tval _
    | exact put _ _ (by decide)
    | exact con _ _ (by decide)
    | exact thr _ _ _ (by decide)
    | exact s.writePmcr_upholds w
    | exact sel pmevcntrs _ (by decide)
    | (split
       · rename_i hg
         exact s.writeGic_upholds _ _ (by simpa using hg)
       · exact s.putControl_upholds _ _)
    | (split
       · first
         | exact (s.writeErrStatus_upholds w).mono fun q => hq q rfl
         | exact s.writeInjectCtl_upholds w
         | exact (put _ _ (by decide)).trans (count _ _)
         | exact con _ _ (by decide)
       · exact Upholds.refl s)
    | skip
  · have he := hr rfl
    exact
      { memory := id
        fixed := FixedBits.congr fun _ _ => rfl
        mode := fun m => ⟨m.aarch64, fun h0 => absurd h0 he⟩
        caches := id
        outputs := fun _ => .of_same rfl }
  · split
    · exact thr _ _ _ (by decide)
    · exact sel _ _ (by decide)

/-! The accesses MRS and MSR -/

theorem State.unnamedSys_upholds (s : State) (e : SysEnc) (read : Bool) {f : State → State}
    (h : ∀ t, Upholds Q t (f t)) : OutUpholds Q s (s.unnamedSys e read f) := by
  unfold State.unnamedSys
  split
  · exact OutUpholds.next s.undefined_upholds
  · split
    · refine OutUpholds.next ?_
      split
      · exact (Upholds.of_pstate s { s.pstate with btype := 0 } ⟨rfl, rfl, rfl⟩ (s.pc + 4)).trans
          (h _)
      · exact s.undefined_upholds
    · exact OutUpholds.refused

theorem execMrs_upholds (rt : Reg) (e : SysEnc) (s : State) : OutUpholds Q s (execMrs rt e s) := by
  unfold execMrs
  split
  · exact s.unnamedSys_upholds _ _ fun t => t.setX_upholds _ _
  · split
    · rename_i h
      exact OutUpholds.next (State.sysGate_upholds h)
    · split
      · exact OutUpholds.refused
      · exact s.advanceWith_upholds fun t => t.doMrs_upholds _ _

/-- An MSR carries the invariants; one of any register but `ERXSTATUS_EL1` lowers no output. -/
theorem execMsr_upholds (e : SysEnc) (rt : Reg) (s : State)
    (hq : Q → s.cfg.regAt e ≠ some .erxstatus_el1) : OutUpholds Q s (execMsr e rt s) := by
  unfold execMsr
  split
  · exact s.unnamedSys_upholds _ _ fun t => t.record_upholds _
  · rename_i r hr
    split
    · rename_i h
      exact OutUpholds.next (State.sysGate_upholds h)
    · rename_i hg
      have hl : r = .spsel → s.pstate.el ≠ 0 := by
        rintro rfl h0
        have hlev : s.levelAllows .spsel false = false := by
          unfold State.levelAllows State.el
          rw [h0]
          decide
        have : s.sysUndefined .spsel false = true := by
          unfold State.sysUndefined
          rw [hlev]
          rfl
        unfold State.sysGate at hg
        simp only [this] at hg
        split at hg
        · cases hg
        · split at hg <;> cases hg
      intro t ht
      obtain ⟨-, rfl⟩ := State.advanceWith_next ht
      exact (Upholds.of_pstate s { s.pstate with btype := 0 } ⟨rfl, rfl, rfl⟩ (s.pc + 4)).trans
        (Upholds.trans (State.writeSys_upholds _ _ _ (by exact hl)
          fun q e => hq q (hr.trans (congrArg some e))) (State.record_upholds _ _))

/-! Cache instructions and prefetches -/

theorem State.healBlock_upholds (s : State) (b : Nat) : Upholds Q s (s.healBlock b) :=
  Upholds.of_same rfl rfl ⟨rfl, rfl, rfl⟩ rfl rfl

theorem State.doZero_upholds (s : State) (m : Mapped) : Upholds Q s (s.doZero m) :=
  (s.healBlock_upholds _).trans ((State.asyncError_upholds _ m _).trans
    ((State.store_upholds _ m _).trans
      ((State.ownStore_upholds _ _ _).trans (State.record_upholds _ _))))

theorem State.zeroBlock_upholds (s : State) (r : Req) : OutUpholds Q s (s.zeroBlock r) := by
  unfold State.zeroBlock
  split
  · rename_i h
    exact State.preCheck_upholds h
  · have h := s.xlate_upholds (Q := Q) r .write
    generalize s.xlate r .write = a at h ⊢
    cases a with
    | mmu t => exact OutUpholds.next h
    | stop o => exact h
    | ok s1 m =>
      exact OutUpholds.trans h (Acc.finish_upholds (s1.afterXlate_upholds _ _) fun t m2 _ =>
        t.advanceWith_upholds fun u => u.doZero_upholds m2)

theorem execDcZva_upholds (rt : Reg) (s : State) : OutUpholds Q s (execDcZva rt s) := by
  unfold execDcZva
  split
  · rename_i t h
    unfold State.zvaTrap at h
    split at h
    · cases h
      exact OutUpholds.next (s.takeSync_upholds (by decide) _ _)
    · split at h
      · cases h
        exact OutUpholds.next (s.takeSync_upholds s.syncTarget_ne _ _)
      · cases h
  · exact s.zeroBlock_upholds _

/-- Two places of an exclusive L1 data cache that hold one block are one place. -/
theorem block_inj_of_pairwise {l : List CacheLine}
    (h : l.Pairwise fun a b => a.block ≠ b.block) :
    ∀ a ∈ l, ∀ b ∈ l, a.block = b.block → a = b := by
  induction h with
  | nil => exact fun a ha => absurd ha List.not_mem_nil
  | @cons c l hc _ ih =>
    intro a ha b hb he
    rcases List.mem_cons.1 ha with h1 | h1 <;> rcases List.mem_cons.1 hb with h2 | h2
    · rw [h1, h2]
    · exact absurd he (h1 ▸ hc b h2)
    · exact absurd he.symm (h2 ▸ hc a h1)
    · exact ih a h1 b h2 he

/-- Cleaning and invalidating a place keeps the caches exclusive (R414). -/
theorem State.cleanL1_exclusive {s : State} (h : ExclusiveCaches s.cache) (set way : Nat) :
    ExclusiveCaches (s.cleanL1 set way) := by
  have hk : ∀ e ∈ dropPlace s.cache.l1d set way, e ∈ s.cache.l1d ∧ lineAt e set way = false := by
    intro e he
    have := List.mem_filter.1 he
    exact ⟨this.1, by simpa using this.2⟩
  unfold State.cleanL1
  dsimp only
  split
  · refine ⟨h.once.sublist List.filter_sublist, ?_, ?_⟩
    · intro a ha b hb
      obtain ⟨ha1, ha2⟩ := hk a ha
      rcases List.mem_append.1 hb with hb | hb
      · obtain ⟨g, hg, rfl⟩ := List.mem_map.1 hb
        obtain ⟨hg1, hg2⟩ := List.mem_filter.1 hg
        intro he
        have hne : a ≠ g := by
          rintro rfl
          simp [ha2] at hg2
        exact hne (block_inj_of_pairwise h.once a ha1 g hg1 he)
      · exact h.disjoint a ha1 b (List.mem_of_mem_filter (List.mem_of_mem_filter hb))
    · intro a ha
      rcases List.mem_append.1 ha with ha | ha
      · exact h.below1 (hk a ha).1
      · rcases List.mem_append.1 ha with ha | ha
        · obtain ⟨g, hg, rfl⟩ := List.mem_map.1 ha
          exact h.below1 (e := g) (List.mem_of_mem_filter hg)
        · exact h.below2 (List.mem_of_mem_filter (List.mem_of_mem_filter ha))
  · exact h.sub List.filter_sublist fun _ hb => hb

theorem State.doCleanSetWay_upholds (s : State) (level set way : Nat) :
    Upholds Q s (s.doCleanSetWay level set way) := by
  obtain ⟨c, i, ev, h⟩ := s.doCleanSetWay_same level set way
  refine Upholds.of_mem (by rw [h]; exact id) (by rw [h]) (by rw [h]) (fun hc => ?_) (by rw [h])
  unfold State.doCleanSetWay
  dsimp only
  split
  · exact (State.cleanL1_exclusive hc set way).of_eq rfl rfl
  · exact hc.sub (List.Sublist.refl _) fun _ hb => List.mem_of_mem_filter hb

theorem execDcCisw_upholds (rt : Reg) (s : State) : OutUpholds Q s (execDcCisw rt s) := by
  unfold execDcCisw
  split
  · exact OutUpholds.next s.undefined_upholds
  · split
    · exact OutUpholds.next (s.takeSync_upholds (by decide) _ _)
    · split
      · exact OutUpholds.refused
      · exact s.advanceWith_upholds fun t => t.doCleanSetWay_upholds _ _ _

theorem execDcIvac_upholds (rt : Reg) (s : State) : OutUpholds Q s (execDcIvac rt s) := by
  unfold execDcIvac
  split
  · exact OutUpholds.next s.undefined_upholds
  · split
    · exact OutUpholds.next (s.takeSync_upholds (by decide) _ _)
    · exact Acc.finish_upholds (s.access_upholds _ _) fun t m _ => t.advanceWith_upholds fun u =>
        (u.asyncError_upholds _ _).trans ((State.healBlock_upholds _ _).trans
          ((State.record_upholds _ _).trans (State.invalidateBlock_upholds _ _ _)))

theorem State.doPrefetch_upholds (s : State) (prfop : BitVec 5) (va : Word) :
    Upholds Q s (s.doPrefetch prfop va) := by
  unfold State.doPrefetch
  split
  · exact .refl s
  split
  · rename_i h
    have hu := State.translateAhead_upholds (Q := Q) h
    have ht (t : State) : Upholds Q t { t with tlb := s.tlb } :=
      Upholds.of_same rfl rfl ⟨rfl, rfl, rfl⟩ rfl rfl
    dsimp only
    split
    · exact (hu.trans (ht _)).trans (Upholds.of_mem id rfl rfl fun hc =>
        State.touchCaches_exclusive hc _ _ _)
    · exact hu.trans (ht _)
  · rename_i h
    exact State.translateAhead_fault_upholds h
  · exact .refl s

theorem State.prefetch_upholds (s : State) (prfop : BitVec 5) (sp : Bool) (va : Word) :
    OutUpholds Q s (s.prefetch prfop sp va) := by
  unfold State.prefetch
  split
  · exact OutUpholds.next (s.takeSync_upholds s.syncTarget_ne _ _)
  · refine s.advanceWith_upholds fun t => ?_
    exact (t.doPrefetch_upholds _ _).trans (State.record_upholds _ _)

theorem execPrfmReg_upholds (prfop : BitVec 5) (rn rm : Reg) (option : BitVec 3) (sh : BitVec 1)
    (s : State) : OutUpholds Q s (execPrfmReg prfop rn rm option sh s) := by
  unfold execPrfmReg
  split
  · exact s.prefetch_upholds _ _ _
  · exact OutUpholds.next s.undefined_upholds

/-- Every instruction carries the invariants to its next state. -/
theorem exec_upholds (i : Instr) (s : State) (hq : Q → ¬ s.clearsRecord i) :
    OutUpholds Q s (exec i s) := by
  cases i
  case sys => exact OutUpholds.refused
  case eret =>
    show OutUpholds Q s (execEret s)
    unfold execEret
    split
    · exact OutUpholds.next s.undefined_upholds
    · split
      · exact OutUpholds.next (s.takeSync_upholds (by decide) _ _)
      · exact OutUpholds.next (s.exceptionReturn_upholds _)
  case prfmLit => exact s.prefetch_upholds _ false _
  case dcZva => exact execDcZva_upholds _ s
  case dcCisw => exact execDcCisw_upholds _ s
  case dcIvac => exact execDcIvac_upholds _ s
  case mrs => exact execMrs_upholds _ _ s
  case msr e rt => exact execMsr_upholds e rt s fun q h => hq q ⟨e, rt, rfl, h⟩
  case ramindex => exact execRamindex_upholds _ s
  all_goals first
    | exact atomicUpdate_upholds _ _ _ _ _ _ _ _
    | exact casMeaning_upholds _ _ _ _ _ _ _
    | exact loadExcl_upholds _ _ _ _ _
    | exact storeExcl_upholds _ _ _ _ _ _
    | exact loadExclPair_upholds _ _ _ _ _ _
    | exact storeExclPair_upholds _ _ _ _ _ _ _
    | exact caspMeaning_upholds _ _ _ _ _ _ _
    | exact s.prefetch_upholds _ _ _
    | exact execPrfmReg_upholds _ _ _ _ _ s
    | exact s.call_upholds _ _
    | exact s.return_upholds _
    | exact s.withAuth_upholds _ _ _ fun a => s.call_upholds a _
    | exact s.withAuth_upholds _ _ _ fun a => s.return_upholds a
    | exact returnAuth_upholds _ s
    | exact execWfe_upholds s
    | exact execWfi_upholds s
    | exact execEsb_upholds s
    | exact s.advanceWith_upholds fun t => t.setMonitor_upholds _
    | exact s.advanceWith_upholds fun t => t.contextSync_upholds

end Sys2Proof.Machine
end

