-- ==== Sys2Proof/Laws/Run.lean ====
section
/-! SUPPORT. A fetch, a reset and the events of the agents outside the core, said once: when a step
runs an instruction, the registers after a reset, and what each of them does to the invariants. -/

-- One proof at a time: every thread takes memory of its own.
set_option Elab.async false

namespace Sys2Proof.Machine

variable {Q : Prop}

/-! Fetch -/

/-- With no event and no exception before it, the step fetches and runs an instruction. -/
theorem RunsNext.runs {s : State} (h : RunsNext s) : s.runOrEvent = s.tick.runInstruction := by
  unfold State.runOrEvent
  rw [h.noEvent]
  dsimp only
  unfold State.run
  rw [State.tick_power, h.on]
  dsimp only
  rw [if_neg (by rw [State.tick_throttle, State.tick_debug, h.free, h.running]; simp),
    if_neg (by simp [h.littleEndian]), if_neg (by simp [h.noReset]), if_neg (by
      rw [show s.tick.asleep = s.asleep by simp [State.asleep], h.awake]; simp),
    if_neg (by rw [State.haltPending, State.tick_debug, h.noHalt]; simp)]
  unfold State.runAwake
  rw [h.noAsync]
  dsimp only
  rw [if_neg]
  rcases h.noStep with h | h
  · simp [h]
  · rw [State.tick_pstate, h]
    simp

/-- A fetch that gives a word: its mapping, the state after it and the word (R192). -/
theorem State.fetch_word {s s1 : State} {m : Mapped} {w : Ins} (h : s.fetch = .word s1 m w) :
    ∃ s0, s.translate s.pc .fetch = .ok s0 m ∧
      s1 = { s0.showPbha s.pc m with cache := s0.fetchCaches m } ∧ w = s0.fetchWord m := by
  unfold State.fetch at h
  repeat' split at h
  all_goals first
    | cases h; done
    | (simp only [Fetched.word.injEq] at h
       obtain ⟨rfl, rfl, rfl⟩ := h
       exact ⟨_, ‹_›, rfl, rfl⟩)

theorem State.fetchCaches_exclusive {s : State} (h : ExclusiveCaches s.cache) (m : Mapped) :
    ExclusiveCaches (s.fetchCaches m) := by
  have h1 : ExclusiveCaches { s.cache with l1i := s.fillL1I (blockOf (mappedKey m)) } :=
    h.of_eq rfl rfl
  unfold State.fetchCaches
  dsimp only
  split
  · exact h
  · split
    · exact h1.insertL2 _ (by simp [State.newL2Line])
    · exact h1

/-- A fetch that ends the step. -/
theorem State.fetchStop_upholds {s : State} {o : Out} (h : s.fetch = .stop o) :
    OutUpholds Q s o := by
  unfold State.fetch at h
  split at h
  · cases h
    exact OutUpholds.next (s.takeException_upholds _ s.syncTarget_ne)
  · split at h
    · cases h
      exact OutUpholds.refused
    · rename_i hs
      cases h
      exact OutUpholds.next ((State.translate_fault_upholds hs).trans
        (State.takeMmuFault_upholds _ _ _ _ _ _))
    · rename_i hs
      have hu := State.translate_upholds (Q := Q) hs
      split at h
      · cases h
        exact OutUpholds.next (hu.trans (State.takeMmuFault_upholds _ _ _ _ _ _))
      · repeat' split at h
        all_goals first
          | (cases h; exact OutUpholds.refused)
          | (cases h; exact OutUpholds.next (hu.trans (State.takeAbort_upholds _ _ _ _ _ _ _)))
          | cases h

theorem State.preExecute_upholds {s t : State} {m : Mapped} {w : Ins}
    (h : s.preExecute m w = some t) : Upholds Q s t := by
  unfold State.preExecute at h
  split at h
  · cases h
    unfold State.breakpointTaken
    split
    · exact s.enterDebug_upholds
    · exact s.takeSync_upholds s.debugTarget_ne _ _
  · split at h
    · cases h
      exact s.takeSync_upholds s.syncTarget_ne _ _
    · split at h
      · cases h
        exact s.takeSync_upholds s.syncTarget_ne _ _
      · cases h

theorem State.execWord_upholds (s : State) (w : Ins)
    (hq : Q → ∀ i, decodeWord w = .ok i → ¬ s.clearsRecord i) :
    OutUpholds Q s (s.execWord w) := by
  unfold State.execWord
  split
  · exact exec_upholds _ s fun q => hq q _ ‹_›
  · exact OutUpholds.refused
  · split
    · exact s.advanceWith_upholds fun t => Upholds.refl t
    · exact OutUpholds.refused

theorem State.stepConsumed_upholds (s : State) : Upholds Q s s.stepConsumed := by
  unfold State.stepConsumed
  split
  · exact Upholds.of_same rfl rfl ⟨rfl, rfl, rfl⟩ rfl rfl
  · exact Upholds.refl s

theorem State.runInstruction_upholds (s : State)
    (hq : Q → ∀ s1 m w i, s.fetch = .word s1 m w → decodeWord w = .ok i → ¬ s.clearsRecord i) :
    OutUpholds Q s s.runInstruction := by
  unfold State.runInstruction
  split
  · exact State.fetchStop_upholds ‹_›
  · rename_i s1 m w hf
    obtain ⟨s0, ht, rfl, -⟩ := State.fetch_word hf
    have h0 : Upholds Q s { s0.showPbha s.pc m with cache := s0.fetchCaches m } :=
      (State.translate_upholds ht).trans
        (Upholds.of_mem id rfl rfl fun hc => State.fetchCaches_exclusive hc m)
    split
    · exact OutUpholds.next (h0.trans (State.preExecute_upholds ‹_›))
    · refine OutUpholds.trans (h0.trans (State.stepConsumed_upholds _))
        (State.execWord_upholds _ w fun q i hi => ?_)
      have hc : (State.stepConsumed { s0.showPbha s.pc m with cache := s0.fetchCaches m }).cfg =
          s.cfg := by
        rw [State.stepConsumed_cfg]
        exact (State.translate_same ht).cfg
      unfold State.clearsRecord
      rw [hc]
      exact hq q _ m w i hf hi

/-! Reset -/

theorem sysRegAt_idx (r : SysReg) : sysRegAt r.idx = r := by
  cases r <;> rfl

/-- A system register after a reset. -/
theorem State.resetTo_get (s : State) (k : ResetKind) (r : SysReg) :
    (s.resetTo k).get r = s.sysAfter k r := by
  unfold State.resetTo State.get
  simp [sysRegAt_idx]

theorem bit_withBit (w : Word) (n : Nat) (b : Bool) (h : n < 64) : bit (withBit w n b) n = b := by
  unfold bit withBit
  cases b <;> simp [h]

/-- A reset leaves the fixed bits as they are stated. -/
theorem State.resetTo_fixed (s : State) (k : ResetKind) : FixedBits (s.resetTo k) := by
  have hk : ∀ r ∈ fixedRegs, k.keeps r = false := by cases k <;> decide
  have hg : ∀ r ∈ fixedRegs, ∃ w, (s.resetTo k).get r = k.stated s.cfg r w := fun r hr =>
    ⟨_, (s.resetTo_get k r).trans (by unfold State.sysAfter; rw [hk r hr]; rfl)⟩
  have clear : ∀ w a : Word, (w &&& ~~~a) &&& a = 0 := fun w a => by
    rw [BitVec.and_assoc]
    simp
  constructor
  · obtain ⟨w, h⟩ := hg .scr_el3 (by decide)
    exact h ▸ bit_withBit w 10 true (by decide)
  · obtain ⟨w, h⟩ := hg .hcr_el2 (by decide)
    exact h ▸ bit_withBit w 31 true (by decide)
  · obtain ⟨w, h⟩ := hg .rmr_el3 (by decide)
    rw [h]
    exact (by decide : bit (1 : Word) 0 = true)
  · obtain ⟨w, h⟩ := hg .vbar_el1 (by decide)
    exact h ▸ clear w _
  · obtain ⟨w, h⟩ := hg .vbar_el2 (by decide)
    exact h ▸ clear w _
  · obtain ⟨w, h⟩ := hg .vbar_el3 (by decide)
    exact h ▸ clear w _
  · obtain ⟨w, h⟩ := hg .fpcr (by decide)
    exact h ▸ clear w _

/-- A Warm reset keeps the interrupt outputs. -/
theorem State.resetTo_ras (s : State) : (s.resetTo .warm).ras = s.ras := by
  simp only [State.resetTo, if_true]

/-- A reset carries the invariants; a Warm one keeps the error record (R486). -/
theorem State.resetTo_upholds (s : State) (k : ResetKind) (hq : Q → k = .warm) :
    Upholds Q s (s.resetTo k) where
  memory := discardDirty_wf _
  fixed _ := s.resetTo_fixed k
  mode _ := ⟨rfl, fun h => absurd h (by decide : (3 : EL) ≠ 0)⟩
  caches _ := .of_nil rfl rfl
  outputs q := by
    obtain rfl := hq q
    exact .of_same s.resetTo_ras

/-! Other observers of memory -/

theorem State.serve_upholds (s : State) : Upholds Q s s.serve := by
  unfold State.serve
  split
  · exact Upholds.of_same rfl rfl ⟨rfl, rfl, rfl⟩ rfl rfl
  · exact Upholds.refl s

theorem State.loseBlocks_upholds (s : State) (f : Nat → Bool) : Upholds Q s (s.loseBlocks f) := by
  unfold State.loseBlocks
  split
  · split
    · exact Upholds.of_same rfl rfl ⟨rfl, rfl, rfl⟩ rfl rfl
    · exact Upholds.refl s
  · exact Upholds.refl s

/-- A change of the caches alone. -/
theorem State.setCache_upholds (s : State) (c : Caches)
    (h : ExclusiveCaches s.cache → ExclusiveCaches c) : Upholds Q s { s with cache := c } :=
  Upholds.of_mem id rfl rfl h

theorem State.setPoison_upholds (s : State) (p : List Nat) : Upholds Q s { s with poison := p } :=
  Upholds.of_same rfl rfl ⟨rfl, rfl, rfl⟩ rfl rfl

theorem State.remoteWrite_upholds (s : State) (key : Nat) (bytes : List Byte) :
    Upholds Q s (s.remoteWrite key bytes) := by
  have h := (s.serve_upholds (Q := Q)).trans ((State.writeMem_upholds _ key bytes).trans
    (State.loseBlocks_upholds _ (fun b => key / 64 ≤ b && b * 64 < key + bytes.length)))
  exact h.trans (Upholds.of_mem id rfl rfl fun hc =>
    hc.sub List.filter_sublist fun _ hb => List.mem_of_mem_filter hb)

theorem State.remoteClean_upholds (s : State) (b : Nat) : Upholds Q s (s.remoteClean b) :=
  s.setCache_upholds _ fun hc => hc.of_eq rfl rfl

theorem shareLine_block (b : Nat) (e : CacheLine) : (shareLine b e).block = e.block := by
  unfold shareLine
  split <;> rfl

theorem shareLine_below {b : Nat} {e : CacheLine} (h : e.below.length ≤ 64) :
    (shareLine b e).below.length ≤ 64 := by
  unfold shareLine
  split
  · exact Nat.zero_le _
  · exact h

theorem State.snoop_upholds (s : State) (b : Nat) (inv : Bool) : Upholds Q s (s.snoop b inv) := by
  cases inv
  · unfold State.snoop
    exact s.serve_upholds.trans ((State.setPoison_upholds _ _).trans
      (State.setCache_upholds (State.mk ..) _ fun hc => hc.map (shareLine b) (shareLine b) rfl rfl
        (fun e he => ⟨shareLine_block b e, shareLine_below (hc.below1 he)⟩)
        (fun e he => ⟨shareLine_block b e, shareLine_below (hc.below2 he)⟩)))
  · show Upholds Q s (State.loseBlocks _ _)
    refine s.serve_upholds.trans (Upholds.trans ?_ (State.loseBlocks_upholds _ _))
    exact Upholds.of_mem id rfl rfl fun hc => (hc.without b).of_eq rfl rfl

theorem State.tlbMaintenance_upholds (s : State) (sc : TlbiScope) :
    Upholds Q s (s.tlbMaintenance sc) :=
  s.serve_upholds.trans (Upholds.of_same rfl rfl ⟨rfl, rfl, rfl⟩ rfl rfl)

theorem State.icacheMaintenance_upholds (s : State) (b : Option Nat) :
    Upholds Q s (s.icacheMaintenance b) :=
  s.serve_upholds.trans (Upholds.of_same rfl rfl ⟨rfl, rfl, rfl⟩ rfl rfl)

theorem State.speculate_upholds (s : State) (va : Word) (fetch : Bool) :
    Upholds Q s (s.speculate va fetch) := by
  unfold State.speculate
  split
  · exact .refl s
  cases fetch
  · simp only [Bool.false_eq_true, if_false]
    split
    · rename_i h
      have hu := State.translateAhead_upholds (Q := Q) h
      split
      · exact hu
      · split
        · exact hu.trans ((State.showPbha_upholds _ _ _).trans
            (State.setCache_upholds _ _ fun hc => State.touchCaches_exclusive hc _ _ _))
        · exact hu
    · exact State.translateAhead_fault_upholds ‹_›
    · exact .refl s
  · simp only [if_true]
    split
    · rename_i h
      have hu := State.translateAhead_upholds (Q := Q) h
      split
      · exact hu
      · exact hu.trans ((State.showPbha_upholds _ _ _).trans
          (State.setCache_upholds _ _ fun hc => State.fetchCaches_exclusive hc _))
    · exact State.translateAhead_fault_upholds ‹_›
    · exact .refl s

/-- A speculative access leaves memory as it was (R221). -/
theorem State.speculate_mem (s : State) (va : Word) (fetch : Bool) :
    (s.speculate va fetch).mem = s.mem := by
  have ahead {k : AccessKind} {s1 : State} {m : Mapped} (h : s.translateAhead va k = .ok s1 m) :
      s1.mem = s.mem := by
    obtain ⟨tlb, bus, cache, rfl, -⟩ := State.translateAhead_ok h
    rfl
  have failed {k : AccessKind} {s1 : State} {f : MmuFault}
      (h : s.translateAhead va k = .fault s1 f) : s1.mem = s.mem := by
    obtain ⟨bus, cache, rfl, -⟩ := State.translateFor_fault h
    rfl
  unfold State.speculate
  split
  · rfl
  cases fetch
  · simp only [Bool.false_eq_true, if_false]
    split
    · have hm := ahead ‹_›
      split
      · exact hm
      · split <;> exact hm
    · exact failed ‹_›
    · rfl
  · simp only [if_true]
    split
    · have hm := ahead ‹_›
      split <;> exact hm
    · exact failed ‹_›
    · rfl

theorem State.bufferWrite_upholds (s : State) (va : Word) (bytes : List Byte) :
    OutUpholds Q s (s.bufferWrite va bytes) := by
  unfold State.bufferWrite
  split
  · exact OutUpholds.refused
  · exact OutUpholds.next (State.translate_fault_upholds ‹_›)
  · have hu := State.translate_upholds (Q := Q) ‹_›
    split
    · exact OutUpholds.next hu
    · split
      · exact OutUpholds.refused
      · exact OutUpholds.next (hu.trans ((State.showPbha_upholds _ _ _).trans
          ((State.store_upholds _ _ _).trans (State.ownStore_upholds _ _ _))))

/-- What a buffer's write carries, its unit carries on. -/
theorem State.afterBufferWrite_upholds (s : State) (va : Word) (bytes : List Byte)
    {f : State → State} (h : ∀ t, Upholds Q t (f t)) :
    OutUpholds Q s (s.afterBufferWrite va bytes f) := by
  have hu := s.bufferWrite_upholds (Q := Q) va bytes
  unfold State.afterBufferWrite
  split
  · rename_i ht
    rw [ht] at hu
    exact OutUpholds.next ((hu _ rfl).trans (h _))
  · exact hu

theorem State.setSpe_upholds (s : State) (u : SpeUnit) : Upholds Q s { s with spe := u } :=
  Upholds.of_same rfl rfl ⟨rfl, rfl, rfl⟩ rfl rfl

theorem State.setTrace_upholds (s : State) (u : TraceUnit) : Upholds Q s { s with trace := u } :=
  Upholds.of_same rfl rfl ⟨rfl, rfl, rfl⟩ rfl rfl

theorem State.speWrite_upholds (s : State) (va : Word) (bytes : List Byte) :
    OutUpholds Q s (s.speWrite va bytes) := by
  unfold State.speWrite
  dsimp only
  split
  · exact s.afterBufferWrite_upholds va bytes fun t =>
      (t.unit_upholds _ (by decide)).trans (State.setSpe_upholds _ _)
  · exact OutUpholds.next (.refl s)

theorem State.trbeWrite_upholds (s : State) (va : Word) (n : Nat) (bytes : List Byte) :
    OutUpholds Q s (s.trbeWrite va n bytes) := by
  unfold State.trbeWrite
  split
  · exact s.afterBufferWrite_upholds va bytes fun t => t.setTrace_upholds _
  · exact OutUpholds.next (.refl s)

theorem State.traceDrain_upholds (s : State) : Upholds Q s s.traceDrain := by
  unfold State.traceDrain
  dsimp only
  repeat' split
  all_goals first
    | exact .refl s
    | exact s.setTrace_upholds _

theorem State.dispatched_upholds (s : State) (n : Nat) : Upholds Q s (s.dispatched n) := by
  unfold State.dispatched
  split
  · exact .refl s
  · split <;> exact s.setSpe_upholds _

/-! Buses and the external debugger -/

theorem State.answer_upholds (s : State) (a : BusReply) : Upholds Q s (s.answer a) :=
  Upholds.of_same rfl rfl ⟨rfl, rfl, rfl⟩ rfl rfl

theorem State.utilityRead_upholds (s : State) (a : BitVec 40) (r : Bool) :
    Upholds Q s (s.utilityRead a r) := by
  unfold State.utilityRead
  split
  · exact s.answer_upholds _
  · split <;> exact s.serve_upholds.trans (State.answer_upholds _ _)

theorem State.utilityWrite_upholds (s : State) (a : BitVec 40) (r : Bool) (w : Word) :
    Upholds Q s (s.utilityWrite a r w) := by
  unfold State.utilityWrite
  split
  · exact s.answer_upholds _
  · split
    · exact s.serve_upholds.trans
        ((State.putThrough_upholds s.serve _ none _).trans (State.answer_upholds _ _))
    · exact s.serve_upholds.trans (State.answer_upholds _ _)

theorem State.setDebug_upholds (s : State) (d : DebugUnit) : Upholds Q s { s with dbg := d } :=
  Upholds.of_same rfl rfl ⟨rfl, rfl, rfl⟩ rfl rfl

theorem State.apbRead_upholds (s : State) (r : ApbReg) : Upholds Q s (s.apbRead r) := by
  have h (a : BusReply) : Upholds Q s (s.serve.answer a) :=
    s.serve_upholds.trans (State.answer_upholds _ _)
  unfold State.apbRead
  dsimp only
  split
  · exact s.answer_upholds _
  · split
    · exact h _
    · split
      · exact (h _).trans (State.setDebug_upholds _ _)
      · exact h _

/-- A register on the debug interface is not `SPSel`. -/
theorem onApb_spsel {r : SysReg} (h : onApb r = true) : r ≠ .spsel := by
  rintro rfl
  revert h
  decide

/-- Nor is it `ERXSTATUS_EL1`. -/
theorem onApb_erxstatus {r : SysReg} (h : onApb r = true) : r ≠ .erxstatus_el1 := by
  rintro rfl
  revert h
  decide

theorem State.apbSet_upholds (s : State) (r : ApbReg) (w : Word) : Upholds Q s (s.apbSet r w) := by
  cases r with
  | system r =>
    unfold State.apbSet
    dsimp only
    split
    · rename_i h
      exact s.writeSys_upholds r w (fun e => absurd e (onApb_spsel h)) fun _ => onApb_erxstatus h
    · exact .refl s
  | osLock => exact Upholds.of_same rfl rfl ⟨rfl, rfl, rfl⟩ rfl rfl
  | snapshot i => exact .refl s
  | _ => exact s.setDebug_upholds _

theorem State.apbWrite_upholds (s : State) (r : ApbReg) (w : Word) :
    Upholds Q s (s.apbWrite r w) := by
  unfold State.apbWrite
  split
  · exact s.answer_upholds _
  · split
    · exact s.serve_upholds.trans (State.answer_upholds _ _)
    · exact s.serve_upholds.trans
        ((State.apbSet_upholds _ _ _).trans (State.answer_upholds _ _))

theorem State.pmuSnapshot_upholds (s : State) : Upholds Q s s.pmuSnapshot := by
  unfold State.pmuSnapshot
  split
  · exact .refl s
  · exact s.setDebug_upholds _

theorem State.debugHalt_upholds (s : State) : Upholds Q s s.debugHalt := by
  unfold State.debugHalt
  split
  · exact s.setDebug_upholds _
  · exact .refl s

/-- A change of PSTATE to one that a debugger may set. -/
theorem State.setLegal_upholds (s : State) (p : PState) :
    Upholds Q s { s with pstate := legalPState p } where
  memory := id
  fixed := FixedBits.congr fun _ _ => rfl
  mode _ := ⟨rfl, fun h => by
    show (p.sp && !(p.el == 0)) = false
    have : p.el = 0 := h
    simp [this]⟩
  caches := id
  outputs _ := .of_same rfl

theorem State.debugAlter_upholds (s : State) (w : DebugWrite)
    (hq : Q → clearsErrorRecord (.debugAlter w) = false) : Upholds Q s (s.debugAlter w) := by
  unfold State.debugAlter
  split
  · exact .refl s
  cases w with
  | general r v => exact s.setX_upholds r v
  | pstate p => exact s.setLegal_upholds p
  | system r v =>
    dsimp only
    by_cases hr : r = .spsel
    · subst hr
      exact s.setLegal_upholds _
    · refine (s.writeSys_upholds r v (fun e => absurd e hr) fun q => ?_).trans
        (State.setLegal_upholds _ _)
      rintro rfl
      cases hq q
  | _ => exact Upholds.of_same rfl rfl ⟨rfl, rfl, rfl⟩ rfl rfl

theorem State.debugRestart_upholds (s : State) : Upholds Q s s.debugRestart := by
  unfold State.debugRestart
  split
  · exact s.contextSync_upholds.trans (State.setDebug_upholds _ _)
  · exact .refl s

/-! Power -/

theorem State.setPower_upholds (s : State) (p : PowerMode) : Upholds Q s { s with power := p } :=
  Upholds.of_same rfl rfl ⟨rfl, rfl, rfl⟩ rfl rfl

theorem State.corrupted_wf (s : State) (l : List Nat) : ∀ (i : Nat) {m : List Host.Cell},
    Memory.wf m → Memory.wf (s.corrupted i l m) := by
  induction l with
  | nil => exact fun _ _ h => h
  | cons b rest ih =>
    intro i m h
    rw [State.corrupted]
    refine ih _ ?_
    split
    · exact Memory.wf_writeBytes _ h
    · exact h

theorem State.cleanCaches_upholds (s : State) : Upholds Q s s.cleanCaches :=
  Upholds.of_mem (s.corrupted_wf _ _) rfl rfl fun _ => .of_nil rfl rfl

/-- The errors that the clean of a powerdown meets. -/
theorem State.cleanDetects_upholds (s : State) : Upholds Q s s.cleanDetects := by
  have go (l : List Nat) : ∀ t : State, Upholds Q t (l.foldl (fun t b =>
      t.recordError (if s.deferred.contains b then .deferred else .uncorrected)) t) := by
    induction l with
    | nil => exact Upholds.refl
    | cons b l ih => exact fun t => (t.recordError_upholds _).trans (ih _)
  exact go _ s

/-- A powerdown takes place with no output asserted, so it lowers none (R494). -/
theorem State.powerDown_upholds (s : State) {off : State → State}
    (h : Upholds False s (off s)) : OutUpholds Q s (s.powerDown off) := by
  unfold State.powerDown
  split
  · exact OutUpholds.refused
  · split
    · exact OutUpholds.next (.refl s)
    · rename_i ha
      split
      · exact OutUpholds.next s.cleanDetects_upholds
      · have ha : s.ras.faultIrq = false ∧ s.ras.errIrq = false := by
          simpa [State.rasActive] using ha
        refine OutUpholds.next { h with outputs := fun _ => ⟨fun hf => ?_, fun he => ?_⟩ }
        · exact absurd (ha.1.symm.trans hf) (by decide)
        · exact absurd (ha.2.symm.trans he) (by decide)

theorem State.ppuRequest_upholds (s : State) (mode : PowerMode) (hq : Q → mode ≠ .on) :
    OutUpholds Q s (s.ppuRequest mode) := by
  have off : Upholds False s s.powerOff := s.cleanCaches_upholds.trans
    ((State.resetTo_upholds _ .cold False.elim).trans (State.setPower_upholds _ _))
  have emu : Upholds False s s.emulateOff := s.cleanCaches_upholds.trans
    (Upholds.of_same rfl rfl ⟨rfl, rfl, rfl⟩ rfl rfl)
  have stay := OutUpholds.next (Upholds.refl (Q := Q) s)
  have full : OutUpholds Q s (if s.retentionReady then .next { s with power := .fullRetention }
      else .refused .illegalPowerMode) := by
    split
    · exact OutUpholds.next (s.setPower_upholds _)
    · exact OutUpholds.refused
  have downOff := s.powerDown_upholds (Q := Q) off
  have downEmu := s.powerDown_upholds (Q := Q) emu
  have on (h : mode = .on) (k : ResetKind) : OutUpholds Q s (.next (s.resetTo k)) :=
    OutUpholds.next (s.resetTo_upholds k fun q => absurd h (hq q))
  have no := OutUpholds.refused (Q := Q) (s := s) (r := .illegalPowerMode)
  have noDebug := OutUpholds.refused (Q := Q) (s := s) (r := .debugRecovery)
  unfold State.ppuRequest
  cases s.power <;> cases mode <;> dsimp only <;>
    first | with_reducible assumption | exact on rfl _

/-! RAM errors -/

theorem State.detected_upholds (s : State) (ram : RamKind) (b : Nat) :
    Upholds Q s (s.detected ram b) := by
  have inv (t : State) (c : Bool) : Upholds Q t (if c then t.invalidateBlock b false else t) := by
    cases c
    · exact .refl t
    · exact t.invalidateBlock_upholds b false
  have err := fun k => s.recordError_upholds (Q := Q) k
  unfold State.detected
  dsimp only
  split
  · exact (err _).trans ((State.setIrq_upholds _ _).trans (inv _ _))
  · split
    · exact (err _).trans (State.setPoison_upholds _ _)
    · split
      · exact (err _).trans ((inv _ _).trans (State.setIrq_upholds _ _))
      · exact (err _).trans ((inv _ _).trans
          (State.setCache_upholds _ _ fun hc => hc.of_eq rfl rfl))

theorem State.undetected_upholds (s : State) (ram : RamKind) (b : Nat) (data : List Byte) :
    Upholds Q s (s.undetected ram b data) := by
  cases ram
  all_goals first
    | exact s.writeMem_upholds _ _
    | exact Upholds.of_same rfl rfl ⟨rfl, rfl, rfl⟩ rfl rfl

theorem State.ramError_upholds (s : State) (ram : RamKind) (bits b : Nat) (data : List Byte) :
    Upholds Q s (s.ramError ram bits b data) := by
  unfold State.ramError
  repeat' split
  all_goals first
    | with_reducible exact .refl s
    | with_reducible exact s.recordError_upholds _
    | with_reducible exact s.undetected_upholds _ _ _
    | with_reducible exact s.detected_upholds _ _

theorem State.injectionClock_upholds (s : State) (n : Nat) : Upholds Q s (s.injectionClock n) := by
  unfold State.injectionClock
  split
  · split
    · dsimp only
      exact (s.setRas_upholds { s.ras with countdown := 0 } fun _ => ⟨id, id⟩).trans
        ((State.injectError_upholds _ _).trans
          (State.unit_upholds _ (r := .erxpfgctl_el1) _ (by decide)))
    · exact s.setRas_upholds _ fun _ => ⟨id, id⟩
  · exact Upholds.refl s

/-! Events -/

/-- An effect that stands on a check of its keys. -/
theorem State.within_upholds (s : State) (n : Nat) {f : State → State} (h : Upholds Q s (f s)) :
    OutUpholds Q s (s.within n f) := by
  unfold State.within
  split
  · exact OutUpholds.next h
  · exact fun _ h => nomatch h

theorem State.warmResetSignal_upholds (s : State) : OutUpholds Q s s.warmResetSignal := by
  have warm : Upholds Q s s.warmReset := s.resetTo_upholds .warm fun _ => rfl
  unfold State.warmResetSignal
  generalize s.warmReset = t at warm ⊢
  split
  all_goals first
    | with_reducible exact OutUpholds.refused
    | with_reducible exact OutUpholds.next (s.setPower_upholds _)
    | exact OutUpholds.next (warm.trans (State.setPower_upholds _ _))

/-- Every event of the agents outside the core carries the invariants to its next state. -/
theorem handleEvent_upholds (e : EnvEvent) (s : State) (hq : Q → clearsErrorRecord e = false) :
    OutUpholds Q s (handleEvent e s) := by
  have same : ∀ t : State, t.mem = s.mem → t.sys = s.sys → t.pstate = s.pstate →
      t.cache = s.cache → t.ras = s.ras → OutUpholds Q s (.next t) := fun t h1 h2 h3 h4 h5 =>
    OutUpholds.next (Upholds.of_same h1 h2 (by rw [h3]; exact ⟨rfl, rfl, rfl⟩) (by rw [h4])
      (by rw [h4]) h5)
  cases e with
  | timerInterrupt t i =>
    refine OutUpholds.next ?_
    split
    · exact Upholds.of_same rfl rfl ⟨rfl, rfl, rfl⟩ rfl rfl
    · exact .refl s
  | serror => exact OutUpholds.next (s.setIrq_upholds _)
  | dispatched n => exact OutUpholds.next (s.dispatched_upholds n)
  | speWrite va bs => exact s.speWrite_upholds va bs
  | trbeWrite va n bs => exact s.trbeWrite_upholds va n bs
  | traceDrain => exact OutUpholds.next s.traceDrain_upholds
  | remoteWrite key bytes =>
    exact s.within_upholds (f := fun t => t.remoteWrite key bytes) _ (s.remoteWrite_upholds _ _)
  | remoteClean b => exact OutUpholds.next (s.remoteClean_upholds b)
  | tagWrite g tag =>
    exact s.within_upholds
      (f := fun t => { t with tags := Memory.write t.tags g (tag &&& 0xF) }) _
      (Upholds.of_same rfl rfl ⟨rfl, rfl, rfl⟩ rfl rfl)
  | snoop b inv => exact OutUpholds.next (s.snoop_upholds b inv)
  | tlbMaintenance sc => exact OutUpholds.next (s.tlbMaintenance_upholds sc)
  | icacheMaintenance b => exact OutUpholds.next (s.icacheMaintenance_upholds b)
  | speculate va f => exact OutUpholds.next (s.speculate_upholds va f)
  | utilityRead o r => exact OutUpholds.next (s.utilityRead_upholds o r)
  | utilityWrite a ok w => exact OutUpholds.next (s.utilityWrite_upholds a ok w)
  | gicAccess => exact OutUpholds.next s.serve_upholds
  | apbRead r => exact OutUpholds.next (s.apbRead_upholds r)
  | apbWrite r w => exact OutUpholds.next (s.apbWrite_upholds r w)
  | pmuSnapshot => exact OutUpholds.next s.pmuSnapshot_upholds
  | debugHalt => exact OutUpholds.next s.debugHalt_upholds
  | debugAlter w => exact OutUpholds.next (s.debugAlter_upholds w hq)
  | debugRestart => exact OutUpholds.next s.debugRestart_upholds
  | ppu mode =>
    refine s.ppuRequest_upholds mode fun q => ?_
    rintro rfl
    cases hq q
  | coldReset => exact OutUpholds.next (s.resetTo_upholds .cold fun q => nomatch hq q)
  | warmReset => exact s.warmResetSignal_upholds
  | ramError ram bits b data =>
    exact s.within_upholds (f := fun t => t.ramError ram bits b data) _
      (s.ramError_upholds ram bits b data)
  | injectionClock n => exact OutUpholds.next (s.injectionClock_upholds n)
  | _ => exact same _ rfl rfl rfl rfl rfl

end Sys2Proof.Machine
end

