-- ==== Sys2Proof/Tests/Slice0.lean ====
section
/-! SUPPORT. Tests. Words that decode, written out from the spec's encodings; single steps from the
vectors of 95_test_vectors.md; and for the statements, states that meet their hypotheses. -/

set_option Elab.async false

open Sys2Proof Sys2Proof.Machine

namespace Sys2Proof.Tests

/-! The smoke test of WellFormed: each check refuses an ill-formed term -/

theorem test_ill_formed_ramindex : (Instr.sys 6 15 0 0 3).wellFormed = false := by decide

theorem test_ill_formed_dc_zva : (Instr.sys 3 7 4 1 3).wellFormed = false := by decide

theorem test_ill_formed_dc_cisw : (Instr.sys 0 7 14 2 3).wellFormed = false := by decide

theorem test_ill_formed_dc_ivac : (Instr.sys 0 7 6 1 3).wellFormed = false := by decide

/-- An `LD<op>` without acquire and with `Rt` 31 is the store form (R278). -/
theorem test_ill_formed_ldadd : (Instr.ldaddW 1 31 2).wellFormed = false := by decide

theorem test_ill_formed_ldclrlb : (Instr.ldclrlb 1 31 2).wellFormed = false := by decide

theorem test_well_formed : (Instr.ldaddaW 1 31 2).wellFormed = true ∧
    (Instr.swpW 1 31 2).wellFormed = true ∧ (Instr.sys 3 8 5 2 6).wellFormed = true := by decide

/-! Words that decode, by the fields and the fixed bits of 30_encoding.md section 3 -/

theorem test_decode_system :
    decodeWord 0xD503205F = .ok .wfe ∧ decodeWord 0xD503207F = .ok .wfi ∧
    decodeWord 0xD503221F = .ok .esb ∧ decodeWord 0xD503355F = .ok (.clrex 5) ∧
    decodeWord 0xD50335DF = .ok (.isb 5) ∧ decodeWord 0xD50EF006 = .ok (.ramindex 6) ∧
    decodeWord 0xD50B7426 = .ok (.dcZva 6) ∧ decodeWord 0xD5087E46 = .ok (.dcCisw 6) ∧
    decodeWord 0xD5087626 = .ok (.dcIvac 6) ∧ decodeWord 0xD50B8546 = .ok (.sys 3 8 5 2 6) ∧
    decodeWord 0xD53B8546 = .ok (.mrs 6 ⟨1, 3, 8, 5, 2⟩) ∧
    decodeWord 0xD51B8546 = .ok (.msr ⟨1, 3, 8, 5, 2⟩ 6) :=
  by decide +kernel

theorem test_decode_branches :
    decodeWord 0x96000001 = .ok (.bl 33554433) ∧ decodeWord 0xD63F00A0 = .ok (.blr 5) ∧
    decodeWord 0xD63F08BF = .ok (.blraaz 5) ∧ decodeWord 0xD63F0CBF = .ok (.blrabz 5) ∧
    decodeWord 0xD73F08A7 = .ok (.blraa 5 7) ∧ decodeWord 0xD73F0CA7 = .ok (.blrab 5 7) ∧
    decodeWord 0xD65F00A0 = .ok (.ret 5) ∧ decodeWord 0xD65F0BFF = .ok .retaa ∧
    decodeWord 0xD65F0FFF = .ok .retab ∧ decodeWord 0xD69F03E0 = .ok .eret ∧
    decodeWord 0xD69F0BFF = .ok .eretaa ∧ decodeWord 0xD69F0FFF = .ok .eretab :=
  by decide +kernel

theorem test_decode_load_exclusive :
    decodeWord 0x085F7CA6 = .ok (.ldxrb 6 5) ∧ decodeWord 0x485F7CA6 = .ok (.ldxrh 6 5) ∧
    decodeWord 0x885F7CA6 = .ok (.ldxrW 6 5) ∧ decodeWord 0xC85F7CA6 = .ok (.ldxrX 6 5) ∧
    decodeWord 0x887F0CA6 = .ok (.ldxpW 6 3 5) ∧ decodeWord 0xC87F0CA6 = .ok (.ldxpX 6 3 5) ∧
    decodeWord 0x085FFCA6 = .ok (.ldaxrb 6 5) ∧ decodeWord 0x485FFCA6 = .ok (.ldaxrh 6 5) ∧
    decodeWord 0x885FFCA6 = .ok (.ldaxrW 6 5) ∧ decodeWord 0xC85FFCA6 = .ok (.ldaxrX 6 5) ∧
    decodeWord 0x887F8CA6 = .ok (.ldaxpW 6 3 5) ∧ decodeWord 0xC87F8CA6 = .ok (.ldaxpX 6 3 5) :=
  by decide +kernel

theorem test_decode_store_exclusive :
    decodeWord 0x08047CA6 = .ok (.stxrb 4 6 5) ∧ decodeWord 0x48047CA6 = .ok (.stxrh 4 6 5) ∧
    decodeWord 0x88047CA6 = .ok (.stxrW 4 6 5) ∧ decodeWord 0xC8047CA6 = .ok (.stxrX 4 6 5) ∧
    decodeWord 0x88240CA6 = .ok (.stxpW 4 6 3 5) ∧ decodeWord 0xC8240CA6 = .ok (.stxpX 4 6 3 5) ∧
    decodeWord 0x0804FCA6 = .ok (.stlxrb 4 6 5) ∧ decodeWord 0x4804FCA6 = .ok (.stlxrh 4 6 5) ∧
    decodeWord 0x8804FCA6 = .ok (.stlxrW 4 6 5) ∧ decodeWord 0xC804FCA6 = .ok (.stlxrX 4 6 5) ∧
    decodeWord 0x88248CA6 = .ok (.stlxpW 4 6 3 5) ∧
    decodeWord 0xC8248CA6 = .ok (.stlxpX 4 6 3 5) :=
  by decide +kernel

theorem test_decode_compare_swap :
    decodeWord 0x88A47CA6 = .ok (.casW 4 6 5) ∧ decodeWord 0x88A4FCA6 = .ok (.caslW 4 6 5) ∧
    decodeWord 0x88E47CA6 = .ok (.casaW 4 6 5) ∧ decodeWord 0x88E4FCA6 = .ok (.casalW 4 6 5) ∧
    decodeWord 0xC8A47CA6 = .ok (.casX 4 6 5) ∧ decodeWord 0xC8A4FCA6 = .ok (.caslX 4 6 5) ∧
    decodeWord 0xC8E47CA6 = .ok (.casaX 4 6 5) ∧ decodeWord 0xC8E4FCA6 = .ok (.casalX 4 6 5) ∧
    decodeWord 0x08A47CA6 = .ok (.casb 4 6 5) ∧ decodeWord 0x08A4FCA6 = .ok (.caslb 4 6 5) ∧
    decodeWord 0x08E47CA6 = .ok (.casab 4 6 5) ∧ decodeWord 0x08E4FCA6 = .ok (.casalb 4 6 5) ∧
    decodeWord 0x48A47CA6 = .ok (.cash 4 6 5) ∧ decodeWord 0x48A4FCA6 = .ok (.caslh 4 6 5) ∧
    decodeWord 0x48E47CA6 = .ok (.casah 4 6 5) ∧ decodeWord 0x48E4FCA6 = .ok (.casalh 4 6 5) ∧
    decodeWord 0x08247CA6 = .ok (.caspW 4 6 5) ∧ decodeWord 0x0824FCA6 = .ok (.casplW 4 6 5) ∧
    decodeWord 0x08647CA6 = .ok (.caspaW 4 6 5) ∧ decodeWord 0x0864FCA6 = .ok (.caspalW 4 6 5) ∧
    decodeWord 0x48247CA6 = .ok (.caspX 4 6 5) ∧ decodeWord 0x4824FCA6 = .ok (.casplX 4 6 5) ∧
    decodeWord 0x48647CA6 = .ok (.caspaX 4 6 5) ∧ decodeWord 0x4864FCA6 = .ok (.caspalX 4 6 5) :=
  by decide +kernel

theorem test_decode_st_add_clr :
    decodeWord 0x382400BF = .ok (.staddb 4 5) ∧ decodeWord 0x782400BF = .ok (.staddh 4 5) ∧
    decodeWord 0xB82400BF = .ok (.staddW 4 5) ∧ decodeWord 0xF82400BF = .ok (.staddX 4 5) ∧
    decodeWord 0x386400BF = .ok (.staddlb 4 5) ∧ decodeWord 0x786400BF = .ok (.staddlh 4 5) ∧
    decodeWord 0xB86400BF = .ok (.staddlW 4 5) ∧ decodeWord 0xF86400BF = .ok (.staddlX 4 5) ∧
    decodeWord 0x382410BF = .ok (.stclrb 4 5) ∧ decodeWord 0x782410BF = .ok (.stclrh 4 5) ∧
    decodeWord 0xB82410BF = .ok (.stclrW 4 5) ∧ decodeWord 0xF82410BF = .ok (.stclrX 4 5) ∧
    decodeWord 0x386410BF = .ok (.stclrlb 4 5) ∧ decodeWord 0x786410BF = .ok (.stclrlh 4 5) ∧
    decodeWord 0xB86410BF = .ok (.stclrlW 4 5) ∧ decodeWord 0xF86410BF = .ok (.stclrlX 4 5) :=
  by decide +kernel

theorem test_decode_st_eor_set :
    decodeWord 0x382420BF = .ok (.steorb 4 5) ∧ decodeWord 0x782420BF = .ok (.steorh 4 5) ∧
    decodeWord 0xB82420BF = .ok (.steorW 4 5) ∧ decodeWord 0xF82420BF = .ok (.steorX 4 5) ∧
    decodeWord 0x386420BF = .ok (.steorlb 4 5) ∧ decodeWord 0x786420BF = .ok (.steorlh 4 5) ∧
    decodeWord 0xB86420BF = .ok (.steorlW 4 5) ∧ decodeWord 0xF86420BF = .ok (.steorlX 4 5) ∧
    decodeWord 0x382430BF = .ok (.stsetb 4 5) ∧ decodeWord 0x782430BF = .ok (.stseth 4 5) ∧
    decodeWord 0xB82430BF = .ok (.stsetW 4 5) ∧ decodeWord 0xF82430BF = .ok (.stsetX 4 5) ∧
    decodeWord 0x386430BF = .ok (.stsetlb 4 5) ∧ decodeWord 0x786430BF = .ok (.stsetlh 4 5) ∧
    decodeWord 0xB86430BF = .ok (.stsetlW 4 5) ∧ decodeWord 0xF86430BF = .ok (.stsetlX 4 5) :=
  by decide +kernel

theorem test_decode_st_smax_smin :
    decodeWord 0x382440BF = .ok (.stsmaxb 4 5) ∧ decodeWord 0x782440BF = .ok (.stsmaxh 4 5) ∧
    decodeWord 0xB82440BF = .ok (.stsmaxW 4 5) ∧ decodeWord 0xF82440BF = .ok (.stsmaxX 4 5) ∧
    decodeWord 0x386440BF = .ok (.stsmaxlb 4 5) ∧ decodeWord 0x786440BF = .ok (.stsmaxlh 4 5) ∧
    decodeWord 0xB86440BF = .ok (.stsmaxlW 4 5) ∧ decodeWord 0xF86440BF = .ok (.stsmaxlX 4 5) ∧
    decodeWord 0x382450BF = .ok (.stsminb 4 5) ∧ decodeWord 0x782450BF = .ok (.stsminh 4 5) ∧
    decodeWord 0xB82450BF = .ok (.stsminW 4 5) ∧ decodeWord 0xF82450BF = .ok (.stsminX 4 5) ∧
    decodeWord 0x386450BF = .ok (.stsminlb 4 5) ∧ decodeWord 0x786450BF = .ok (.stsminlh 4 5) ∧
    decodeWord 0xB86450BF = .ok (.stsminlW 4 5) ∧ decodeWord 0xF86450BF = .ok (.stsminlX 4 5) :=
  by decide +kernel

theorem test_decode_st_umax_umin :
    decodeWord 0x382460BF = .ok (.stumaxb 4 5) ∧ decodeWord 0x782460BF = .ok (.stumaxh 4 5) ∧
    decodeWord 0xB82460BF = .ok (.stumaxW 4 5) ∧ decodeWord 0xF82460BF = .ok (.stumaxX 4 5) ∧
    decodeWord 0x386460BF = .ok (.stumaxlb 4 5) ∧ decodeWord 0x786460BF = .ok (.stumaxlh 4 5) ∧
    decodeWord 0xB86460BF = .ok (.stumaxlW 4 5) ∧ decodeWord 0xF86460BF = .ok (.stumaxlX 4 5) ∧
    decodeWord 0x382470BF = .ok (.stuminb 4 5) ∧ decodeWord 0x782470BF = .ok (.stuminh 4 5) ∧
    decodeWord 0xB82470BF = .ok (.stuminW 4 5) ∧ decodeWord 0xF82470BF = .ok (.stuminX 4 5) ∧
    decodeWord 0x386470BF = .ok (.stuminlb 4 5) ∧ decodeWord 0x786470BF = .ok (.stuminlh 4 5) ∧
    decodeWord 0xB86470BF = .ok (.stuminlW 4 5) ∧ decodeWord 0xF86470BF = .ok (.stuminlX 4 5) :=
  by decide +kernel

theorem test_decode_ld_add :
    decodeWord 0x382400A6 = .ok (.ldaddb 4 6 5) ∧ decodeWord 0x782400A6 = .ok (.ldaddh 4 6 5) ∧
    decodeWord 0xB82400A6 = .ok (.ldaddW 4 6 5) ∧ decodeWord 0xF82400A6 = .ok (.ldaddX 4 6 5) ∧
    decodeWord 0x386400A6 = .ok (.ldaddlb 4 6 5) ∧ decodeWord 0x786400A6 = .ok (.ldaddlh 4 6 5) ∧
    decodeWord 0xB86400A6 = .ok (.ldaddlW 4 6 5) ∧ decodeWord 0xF86400A6 = .ok (.ldaddlX 4 6 5) ∧
    decodeWord 0x38A400A6 = .ok (.ldaddab 4 6 5) ∧ decodeWord 0x78A400A6 = .ok (.ldaddah 4 6 5) ∧
    decodeWord 0xB8A400A6 = .ok (.ldaddaW 4 6 5) ∧ decodeWord 0xF8A400A6 = .ok (.ldaddaX 4 6 5) ∧
    decodeWord 0x38E400A6 = .ok (.ldaddalb 4 6 5) ∧ decodeWord 0x78E400A6 = .ok (.ldaddalh 4 6 5) ∧
    decodeWord 0xB8E400A6 = .ok (.ldaddalW 4 6 5) ∧
    decodeWord 0xF8E400A6 = .ok (.ldaddalX 4 6 5) :=
  by decide +kernel

theorem test_decode_ld_clr :
    decodeWord 0x382410A6 = .ok (.ldclrb 4 6 5) ∧ decodeWord 0x782410A6 = .ok (.ldclrh 4 6 5) ∧
    decodeWord 0xB82410A6 = .ok (.ldclrW 4 6 5) ∧ decodeWord 0xF82410A6 = .ok (.ldclrX 4 6 5) ∧
    decodeWord 0x386410A6 = .ok (.ldclrlb 4 6 5) ∧ decodeWord 0x786410A6 = .ok (.ldclrlh 4 6 5) ∧
    decodeWord 0xB86410A6 = .ok (.ldclrlW 4 6 5) ∧ decodeWord 0xF86410A6 = .ok (.ldclrlX 4 6 5) ∧
    decodeWord 0x38A410A6 = .ok (.ldclrab 4 6 5) ∧ decodeWord 0x78A410A6 = .ok (.ldclrah 4 6 5) ∧
    decodeWord 0xB8A410A6 = .ok (.ldclraW 4 6 5) ∧ decodeWord 0xF8A410A6 = .ok (.ldclraX 4 6 5) ∧
    decodeWord 0x38E410A6 = .ok (.ldclralb 4 6 5) ∧ decodeWord 0x78E410A6 = .ok (.ldclralh 4 6 5) ∧
    decodeWord 0xB8E410A6 = .ok (.ldclralW 4 6 5) ∧
    decodeWord 0xF8E410A6 = .ok (.ldclralX 4 6 5) :=
  by decide +kernel

theorem test_decode_ld_eor :
    decodeWord 0x382420A6 = .ok (.ldeorb 4 6 5) ∧ decodeWord 0x782420A6 = .ok (.ldeorh 4 6 5) ∧
    decodeWord 0xB82420A6 = .ok (.ldeorW 4 6 5) ∧ decodeWord 0xF82420A6 = .ok (.ldeorX 4 6 5) ∧
    decodeWord 0x386420A6 = .ok (.ldeorlb 4 6 5) ∧ decodeWord 0x786420A6 = .ok (.ldeorlh 4 6 5) ∧
    decodeWord 0xB86420A6 = .ok (.ldeorlW 4 6 5) ∧ decodeWord 0xF86420A6 = .ok (.ldeorlX 4 6 5) ∧
    decodeWord 0x38A420A6 = .ok (.ldeorab 4 6 5) ∧ decodeWord 0x78A420A6 = .ok (.ldeorah 4 6 5) ∧
    decodeWord 0xB8A420A6 = .ok (.ldeoraW 4 6 5) ∧ decodeWord 0xF8A420A6 = .ok (.ldeoraX 4 6 5) ∧
    decodeWord 0x38E420A6 = .ok (.ldeoralb 4 6 5) ∧ decodeWord 0x78E420A6 = .ok (.ldeoralh 4 6 5) ∧
    decodeWord 0xB8E420A6 = .ok (.ldeoralW 4 6 5) ∧
    decodeWord 0xF8E420A6 = .ok (.ldeoralX 4 6 5) :=
  by decide +kernel

theorem test_decode_ld_set :
    decodeWord 0x382430A6 = .ok (.ldsetb 4 6 5) ∧ decodeWord 0x782430A6 = .ok (.ldseth 4 6 5) ∧
    decodeWord 0xB82430A6 = .ok (.ldsetW 4 6 5) ∧ decodeWord 0xF82430A6 = .ok (.ldsetX 4 6 5) ∧
    decodeWord 0x386430A6 = .ok (.ldsetlb 4 6 5) ∧ decodeWord 0x786430A6 = .ok (.ldsetlh 4 6 5) ∧
    decodeWord 0xB86430A6 = .ok (.ldsetlW 4 6 5) ∧ decodeWord 0xF86430A6 = .ok (.ldsetlX 4 6 5) ∧
    decodeWord 0x38A430A6 = .ok (.ldsetab 4 6 5) ∧ decodeWord 0x78A430A6 = .ok (.ldsetah 4 6 5) ∧
    decodeWord 0xB8A430A6 = .ok (.ldsetaW 4 6 5) ∧ decodeWord 0xF8A430A6 = .ok (.ldsetaX 4 6 5) ∧
    decodeWord 0x38E430A6 = .ok (.ldsetalb 4 6 5) ∧ decodeWord 0x78E430A6 = .ok (.ldsetalh 4 6 5) ∧
    decodeWord 0xB8E430A6 = .ok (.ldsetalW 4 6 5) ∧
    decodeWord 0xF8E430A6 = .ok (.ldsetalX 4 6 5) :=
  by decide +kernel

theorem test_decode_ld_smax :
    decodeWord 0x382440A6 = .ok (.ldsmaxb 4 6 5) ∧ decodeWord 0x782440A6 = .ok (.ldsmaxh 4 6 5) ∧
    decodeWord 0xB82440A6 = .ok (.ldsmaxW 4 6 5) ∧ decodeWord 0xF82440A6 = .ok (.ldsmaxX 4 6 5) ∧
    decodeWord 0x386440A6 = .ok (.ldsmaxlb 4 6 5) ∧ decodeWord 0x786440A6 = .ok (.ldsmaxlh 4 6 5) ∧
    decodeWord 0xB86440A6 = .ok (.ldsmaxlW 4 6 5) ∧ decodeWord 0xF86440A6 = .ok (.ldsmaxlX 4 6 5) ∧
    decodeWord 0x38A440A6 = .ok (.ldsmaxab 4 6 5) ∧ decodeWord 0x78A440A6 = .ok (.ldsmaxah 4 6 5) ∧
    decodeWord 0xB8A440A6 = .ok (.ldsmaxaW 4 6 5) ∧ decodeWord 0xF8A440A6 = .ok (.ldsmaxaX 4 6 5) ∧
    decodeWord 0x38E440A6 = .ok (.ldsmaxalb 4 6 5) ∧
    decodeWord 0x78E440A6 = .ok (.ldsmaxalh 4 6 5) ∧
    decodeWord 0xB8E440A6 = .ok (.ldsmaxalW 4 6 5) ∧
    decodeWord 0xF8E440A6 = .ok (.ldsmaxalX 4 6 5) :=
  by decide +kernel

theorem test_decode_ld_smin :
    decodeWord 0x382450A6 = .ok (.ldsminb 4 6 5) ∧ decodeWord 0x782450A6 = .ok (.ldsminh 4 6 5) ∧
    decodeWord 0xB82450A6 = .ok (.ldsminW 4 6 5) ∧ decodeWord 0xF82450A6 = .ok (.ldsminX 4 6 5) ∧
    decodeWord 0x386450A6 = .ok (.ldsminlb 4 6 5) ∧ decodeWord 0x786450A6 = .ok (.ldsminlh 4 6 5) ∧
    decodeWord 0xB86450A6 = .ok (.ldsminlW 4 6 5) ∧ decodeWord 0xF86450A6 = .ok (.ldsminlX 4 6 5) ∧
    decodeWord 0x38A450A6 = .ok (.ldsminab 4 6 5) ∧ decodeWord 0x78A450A6 = .ok (.ldsminah 4 6 5) ∧
    decodeWord 0xB8A450A6 = .ok (.ldsminaW 4 6 5) ∧ decodeWord 0xF8A450A6 = .ok (.ldsminaX 4 6 5) ∧
    decodeWord 0x38E450A6 = .ok (.ldsminalb 4 6 5) ∧
    decodeWord 0x78E450A6 = .ok (.ldsminalh 4 6 5) ∧
    decodeWord 0xB8E450A6 = .ok (.ldsminalW 4 6 5) ∧
    decodeWord 0xF8E450A6 = .ok (.ldsminalX 4 6 5) :=
  by decide +kernel

theorem test_decode_ld_umax :
    decodeWord 0x382460A6 = .ok (.ldumaxb 4 6 5) ∧ decodeWord 0x782460A6 = .ok (.ldumaxh 4 6 5) ∧
    decodeWord 0xB82460A6 = .ok (.ldumaxW 4 6 5) ∧ decodeWord 0xF82460A6 = .ok (.ldumaxX 4 6 5) ∧
    decodeWord 0x386460A6 = .ok (.ldumaxlb 4 6 5) ∧ decodeWord 0x786460A6 = .ok (.ldumaxlh 4 6 5) ∧
    decodeWord 0xB86460A6 = .ok (.ldumaxlW 4 6 5) ∧ decodeWord 0xF86460A6 = .ok (.ldumaxlX 4 6 5) ∧
    decodeWord 0x38A460A6 = .ok (.ldumaxab 4 6 5) ∧ decodeWord 0x78A460A6 = .ok (.ldumaxah 4 6 5) ∧
    decodeWord 0xB8A460A6 = .ok (.ldumaxaW 4 6 5) ∧ decodeWord 0xF8A460A6 = .ok (.ldumaxaX 4 6 5) ∧
    decodeWord 0x38E460A6 = .ok (.ldumaxalb 4 6 5) ∧
    decodeWord 0x78E460A6 = .ok (.ldumaxalh 4 6 5) ∧
    decodeWord 0xB8E460A6 = .ok (.ldumaxalW 4 6 5) ∧
    decodeWord 0xF8E460A6 = .ok (.ldumaxalX 4 6 5) :=
  by decide +kernel

theorem test_decode_ld_umin :
    decodeWord 0x382470A6 = .ok (.lduminb 4 6 5) ∧ decodeWord 0x782470A6 = .ok (.lduminh 4 6 5) ∧
    decodeWord 0xB82470A6 = .ok (.lduminW 4 6 5) ∧ decodeWord 0xF82470A6 = .ok (.lduminX 4 6 5) ∧
    decodeWord 0x386470A6 = .ok (.lduminlb 4 6 5) ∧ decodeWord 0x786470A6 = .ok (.lduminlh 4 6 5) ∧
    decodeWord 0xB86470A6 = .ok (.lduminlW 4 6 5) ∧ decodeWord 0xF86470A6 = .ok (.lduminlX 4 6 5) ∧
    decodeWord 0x38A470A6 = .ok (.lduminab 4 6 5) ∧ decodeWord 0x78A470A6 = .ok (.lduminah 4 6 5) ∧
    decodeWord 0xB8A470A6 = .ok (.lduminaW 4 6 5) ∧ decodeWord 0xF8A470A6 = .ok (.lduminaX 4 6 5) ∧
    decodeWord 0x38E470A6 = .ok (.lduminalb 4 6 5) ∧
    decodeWord 0x78E470A6 = .ok (.lduminalh 4 6 5) ∧
    decodeWord 0xB8E470A6 = .ok (.lduminalW 4 6 5) ∧
    decodeWord 0xF8E470A6 = .ok (.lduminalX 4 6 5) :=
  by decide +kernel

theorem test_decode_swp :
    decodeWord 0x382480A6 = .ok (.swpb 4 6 5) ∧ decodeWord 0x782480A6 = .ok (.swph 4 6 5) ∧
    decodeWord 0xB82480A6 = .ok (.swpW 4 6 5) ∧ decodeWord 0xF82480A6 = .ok (.swpX 4 6 5) ∧
    decodeWord 0x386480A6 = .ok (.swplb 4 6 5) ∧ decodeWord 0x786480A6 = .ok (.swplh 4 6 5) ∧
    decodeWord 0xB86480A6 = .ok (.swplW 4 6 5) ∧ decodeWord 0xF86480A6 = .ok (.swplX 4 6 5) ∧
    decodeWord 0x38A480A6 = .ok (.swpab 4 6 5) ∧ decodeWord 0x78A480A6 = .ok (.swpah 4 6 5) ∧
    decodeWord 0xB8A480A6 = .ok (.swpaW 4 6 5) ∧ decodeWord 0xF8A480A6 = .ok (.swpaX 4 6 5) ∧
    decodeWord 0x38E480A6 = .ok (.swpalb 4 6 5) ∧ decodeWord 0x78E480A6 = .ok (.swpalh 4 6 5) ∧
    decodeWord 0xB8E480A6 = .ok (.swpalW 4 6 5) ∧ decodeWord 0xF8E480A6 = .ok (.swpalX 4 6 5) :=
  by decide +kernel

theorem test_decode_prefetch :
    decodeWord 0xF9A004A9 = .ok (.prfmImm 9 5 2049) ∧
    decodeWord 0xF89010A9 = .ok (.prfum 9 5 257) ∧
    decodeWord 0xF8A7D8A9 = .ok (.prfmReg 9 5 7 6 1) ∧
    decodeWord 0xD8800029 = .ok (.prfmLit 9 262145) :=
  by decide +kernel

/-- Words that no row matches (95_test_vectors.md section 11). -/
theorem test_decode_refuses : decodeWord 0xD503201F = .error .noRow ∧
    decodeWord 0xD5033F9F = .error .noRow ∧ decodeWord 0x14000002 = .error .noRow ∧
    decodeWord 0xD61F00A0 = .error .noRow := by and_intros <;> rfl

theorem test_decode_table_word : decodeTableWord 32 0x94000004 = some (.bl 4) ∧
    decodeTableWord 32 0x14000002 = none := by and_intros <;> rfl

/-! Single steps, from the vectors of 95_test_vectors.md -/

/-- The next state meets a check. -/
def after (o : Out) (f : State → Bool) : Bool :=
  match o with
  | .next t => f t
  | _ => false

/-- A platform whose memory is Normal Write-Back while translation is off. -/
def wbConfig : Config := { resetConfig with mmuOffData := .normal .writeBack .writeBack }

/-- After reset, at EL3. -/
def wb : State := State.resetWith wbConfig

/-- The start state S0 of the vectors, with translation off, the caches on. -/
def s0 : State :=
  { (wb.put .vbar_el1 0x80000).put .sctlr_el1 0x80101C with
    pstate := { resetPState with el := 1 }
    sp := wb.sp.set 1 0x9800
    pc := 0x1000 }

/-- S0 with X0, X1 and X2, and one doubleword at 0x9000. -/
def s0With (x0 x2 : Word) (m : Data) : State :=
  { ((s0.setX 0 x0).setX 1 0x9000).setX 2 x2 with mem := Memory.writeLE [] 0x9000 8 m }

/-- P4 of the vectors, at EL0. -/
def user : State := { s0 with pstate := unpackPState 0, pc := 0x5000 }

theorem test_wfi_sleeps : after (exec .wfi s0) (fun t => t.sleep.lowPower == .wfi &&
    t.pc == 0x1000) = true := by decide +kernel

theorem test_wfi_completes : after (exec .wfi { s0 with irq := ⟨false, false, false, false, some 0, false⟩ })
    (fun t => t.sleep.lowPower == .running && t.pc == 0x1004) = true := by decide +kernel

theorem test_wfe_clears_event : after (exec .wfe { s0 with eventReg := true }) (fun t =>
    !t.eventReg && t.sleep.lowPower == .running && t.pc == 0x1004) = true := by decide +kernel

theorem test_wfe_trapped_el0 : after (exec .wfe user) (fun t => t.get .esr_el1 == 0x07E00001 &&
    t.pc == 0x80400) = true := by decide +kernel

theorem test_esb_defers : after (exec .esb { s0 with irq := ⟨false, false, false, false, some 0x11, false⟩ })
    (fun t => t.get .disr_el1 == 0x80000011 && t.irq.serror == none && t.pc == 0x1004) = true := by
  decide +kernel

theorem test_clrex : after (exec (.clrex 15) { s0 with monitor := .exclusive 0x240 false }) (fun t =>
    t.monitor == .opened && t.pc == 0x1004) = true := by decide +kernel

theorem test_isb : after (exec (.isb 15) { s0 with unsynced := [⟨.ttbr0_el1, some .ttbr0_el1, 7⟩] }) (fun t =>
    t.unsynced == []) = true := by decide +kernel

/-- P4 step 2: RAMINDEX at EL0 is UNDEFINED. -/
theorem test_ramindex_undefined : after (exec (.ramindex 0) user) (fun t =>
    t.get .esr_el1 == 0x02000000 && t.get .elr_el1 == 0x5000 && t.pc == 0x80400 &&
    t.pstate.el == 1 && t.pstate.tco) = true := by decide +kernel

/-- P6 step 1: the block of 0x9027 becomes zero, its neighbour stays. -/
theorem test_dc_zva : after (exec (.dcZva 3) { s0.setX 3 0x9027 with
      mem := Memory.writeLE (Memory.writeLE [] 0x9010 8 0xFF) 0x9040 1 0xFF })
    (fun t => Memory.read t.mem 0x9010 == 0 && Memory.read t.mem 0x9040 == 0xFF) = true := by
  decide +kernel

/-- P6 step 4: way 2, set 5 of the L1 data cache. -/
theorem test_dc_cisw_place : s0.setWay 0x80000140 = some (0, 5, 2) := by decide +kernel

theorem test_dc_ivac : after (exec (.dcIvac 1) { s0.setX 1 0x9000 with
      cache := { Caches.empty with l1d := [⟨0x240, 0, 0, .exclusive, [], false⟩] } }) (fun t =>
    t.cache.l1d == []) = true := by decide +kernel

theorem test_sys_refused : (match exec (.sys 0 11 0 0 0) s0 with
    | .refused .archSys => true
    | _ => false) = true := by decide +kernel

theorem test_mrs : after (exec (.mrs 3 ⟨1, 0, 12, 0, 0⟩) s0) (fun t => t.xr 3 == 0x80000) = true := by
  decide +kernel

theorem test_msr_vbar : after (exec (.msr ⟨1, 0, 12, 0, 0⟩ 3) (s0.setX 3 0x12FFF)) (fun t =>
    t.get .vbar_el1 == 0x12800) = true := by decide +kernel

/-- P1 step 1. -/
theorem test_bl : after (exec (.bl 4) s0) (fun t => t.pc == 0x1010 && t.xr 30 == 0x1004) = true := by
  decide +kernel

theorem test_bl_backwards : after (exec (.bl 0x3FFFFFF) s0) (fun t => t.pc == 0xFFC) = true := by
  decide +kernel

/-- The target is read before X30 is written. -/
theorem test_blr_x30 : after (exec (.blr 30) (s0.setX 30 0x2000)) (fun t =>
    t.pc == 0x2000 && t.xr 30 == 0x1004) = true := by decide +kernel

theorem test_ret : after (exec (.ret 30) { s0.setX 30 0x1004 with returnStack := [⟨0x1004, .a64⟩] })
    (fun t => t.pc == 0x1004 && t.returnStack == []) = true := by decide +kernel

/-- P4 step 1. -/
theorem test_eret : after (exec .eret { s0.put .elr_el1 0x5000 with
      monitor := .exclusive 0x240 false }) (fun t => t.pc == 0x5000 && t.pstate.el == 0 &&
    !t.pstate.d && !t.pstate.sp && t.monitor == .opened) = true := by decide +kernel

theorem test_eret_illegal : after (exec .eret ((s0.put .elr_el1 0x5000).put .spsr_el1 0x10))
    (fun t => t.pc == 0x5000 && t.pstate.il && t.pstate.el == 1) = true := by decide +kernel

theorem test_ldxrb : after (exec (.ldxrb 0 1) (s0With 0 0 0x11AB)) (fun t => t.xr 0 == 0xAB &&
    t.monitor == .exclusive 0x240 false) = true := by decide +kernel

theorem test_ldaxrW : after (exec (.ldaxrW 0 1) (s0With 0 0 0x5511223344)) (fun t =>
    t.xr 0 == 0x11223344) = true := by decide +kernel

theorem test_ldxpW : after (exec (.ldxpW 4 5 1) (s0With 0 0 0x1122334455667788)) (fun t =>
    t.xr 4 == 0x55667788 && t.xr 5 == 0x11223344) = true := by decide +kernel

/-- P2 step 3: with the monitor open nothing is stored. -/
theorem test_stxrW_open : after (exec (.stxrW 4 2 1) (s0With 0 0x55 0x44)) (fun t =>
    t.xr 4 == 1 && Memory.read t.mem 0x9000 == 0x44) = true := by decide +kernel

theorem test_stlxpX_open : after (exec (.stlxpX 4 2 3 1) (s0With 0 0x55 0x44)) (fun t =>
    t.xr 4 == 1 && t.monitor == .opened) = true := by decide +kernel

/-- P3 step 1: the lock is taken. -/
theorem test_casa_taken : after (exec (.casaW 0 2 1) (s0With 0 1 0)) (fun t => t.xr 0 == 0 &&
    Memory.readLE t.mem 0x9000 4 == 1) = true := by decide +kernel

/-- P3 step 2: the lock is seen held. -/
theorem test_casa_held : after (exec (.casaW 0 2 1) (s0With 0 7 1)) (fun t => t.xr 0 == 1 &&
    Memory.readLE t.mem 0x9000 4 == 1) = true := by decide +kernel

theorem test_caspW_odd : after (exec (.caspW 1 2 1) s0) (fun t => t.get .esr_el1 == 0x02000000) =
    true := by decide +kernel

/-- P1 step 2: the addition wraps at 32 bits. -/
theorem test_ldaddW : after (exec (.ldaddW 0 2 1) (s0With 0xFFFFFFFF 0xDEAD 10)) (fun t =>
    t.xr 2 == 10 && Memory.readLE t.mem 0x9000 8 == 9) = true := by decide +kernel

/-- P3 step 5. -/
theorem test_ldumaxb : after (exec (.ldumaxb 0 2 1) (s0With 0x80 0 1)) (fun t => t.xr 2 == 1 &&
    Memory.read t.mem 0x9000 == 0x80) = true := by decide +kernel

theorem test_ldsmaxb_signed : after (exec (.ldsmaxb 0 2 1) (s0With 0x80 0 1)) (fun t =>
    Memory.read t.mem 0x9000 == 1) = true := by decide +kernel

theorem test_ldclrh : after (exec (.ldclrh 0 2 1) (s0With 0x0F0F 0 0xFFFFF)) (fun t =>
    Memory.readLE t.mem 0x9000 4 == 0xFF0F0) = true := by decide +kernel

/-- P3 step 3. -/
theorem test_swplW : after (exec (.swplW 0 2 1) (s0With 0 7 1)) (fun t => t.xr 2 == 1 &&
    Memory.readLE t.mem 0x9000 4 == 0) = true := by decide +kernel

/-- P3 step 4. -/
theorem test_staddW : after (exec (.staddW 2 1) (s0With 5 1 0)) (fun t => t.xr 0 == 5 &&
    Memory.readLE t.mem 0x9000 4 == 1) = true := by decide +kernel

theorem test_prfm : after (exec (.prfmImm 0 1 8) s0) (fun t => t.pc == 0x1004) = true := by
  decide +kernel

theorem test_prfm_reg_undefined : after (exec (.prfmReg 0 1 2 0 0) s0) (fun t =>
    t.get .esr_el1 == 0x02000000) = true := by decide +kernel

/-- The syndrome table of the vectors: an Alignment fault of a store. -/
theorem test_stxrW_misaligned : after (exec (.stxrW 4 2 1) (s0.setX 1 0x9002)) (fun t =>
    t.get .esr_el1 == 0x96000061 && t.get .far_el1 == 0x9002 && t.pc == 0x80200 &&
    t.get .spsr_el1 == 0x3C5) = true := by decide +kernel

/-- VR5: an FIQ routed to EL3. -/
theorem test_fiq_to_el3 : after (step { (s0.put .scr_el3 0x404).put .vbar_el3 0xC0000 with
      pstate := { resetPState with el := 1, f := false }
      gicDisabled := true
      irq := ⟨false, true, false, false, none, false⟩ }) (fun t =>
    t.get .spsr_el3 == 0x385 && t.get .elr_el3 == 0x1000 && t.get .esr_el3 == 0 &&
    t.pstate.el == 3 && t.pc == 0xC0500) = true := by decide +kernel

/-- A word placed where the first step after reset fetches is run by it. -/
theorem test_step_runs_placed_word : after (step (State.reset.withFetchWord 32 0x94000004)) (fun t =>
    t.pc == 0x10 && t.xr 30 == 4) = true := by decide +kernel

/-- R44: with TBI0 set the tag of a fetch address counts for nothing, but with TBID0 set it does. -/
theorem test_tagged_fetch :
    nonCanonical ((s0.put .tcr_el1 0x2000000000).untagged 0x5A00000000001000 .fetch) = false ∧
    nonCanonical ((s0.put .tcr_el1 0x8002000000000).untagged 0x5A00000000001000 .fetch) = true ∧
    nonCanonical (s0.untagged 0x5A00000000001000 .fetch) = true := by decide +kernel

/-- R356 (c): a fetch from a pointer whose authentication failed finds no canonical address, also
where TBI0 sets its tag aside. -/
theorem test_failed_pointer : [s0, s0.put .tcr_el1 0x2000000000].all (fun s => [false, true].all
    fun b => nonCanonical (s.untagged (s.failedPointer 0x1000 b) .fetch)) = true := by decide +kernel

/-- R308: a write through the clearing view is seen at once through that name; the other name may
still give the old value until a context synchronisation event. -/
theorem test_mrs_other_view :
    otherViews true .pmcntenclr_el0 1 [⟨.pmcntenset_el0, some .pmcntenclr_el0, 3⟩] = [] ∧
    otherViews true .pmcntenset_el0 1 [⟨.pmcntenset_el0, some .pmcntenclr_el0, 3⟩] = [3] := by
  decide +kernel

/-- R488: a dirty line that leaves the L2 cache meets the error of its block, a clean one does
not. -/
theorem test_eviction_meets_error : [Mesi.modified, .exclusive].map (fun m =>
    ({ Caches.empty with l2 := [⟨5, 0, 0, m, [], false⟩], bad := [5] }.insertL2
      ⟨6, 0, 0, .exclusive, [], false⟩).met) = [[5], []] := by decide +kernel

/-- R577: RAM errors do nothing to a core that is off. -/
theorem test_ram_error_off : { s0 with power := .off }.ramError .l1dData 2 5 [1, 2] =
    { s0 with power := .off } := by rfl

/-! States that meet the hypotheses of the statements -/

/-- The access of a Load-Exclusive, Store-Exclusive or atomic at 0x9000, 8 bytes or 16. -/
def mem9000 : State := s0With 0 0x55 0x44

def reqOf (s : State) (n : Nat) (loads stores : Bool) : Req := s.baseReq 1 n loads stores

theorem translate_off {s : State} {va : Word} {k : AccessKind}
    (h1 : (s.stage1On || s.stage2On) = false) (h2 : va.toNat < 2 ^ 40) :
    s.translate va k = .ok s (s.offMapped va k) := by
  unfold State.translate State.translateFor
  rw [h1, if_neg (by decide), s.untagged_low k h2, if_pos h2]

theorem off_granted {s : State} {r : Req} {k : AccessKind}
    (h1 : (s.stage1On || s.stage2On) = false) (h2 : r.va.toNat < 2 ^ 40)
    (h3 : s.permissionFault (s.offMapped r.va k) k = none) :
    Granted s r k s (s.offMapped r.va k) where
  translated := translate_off h1 h2
  permitted := h3

/-- A state whose X1 is an address on the utility bus, and its mapping. -/
def onBusAt : Word := 0x8000090000

def onBus : State := mem9000.setX 1 onBusAt

def onBusMap : Mapped := onBus.offMapped onBusAt .read

theorem hasNext_s0 : s0.hasNext := by
  show _ < _
  decide +kernel

theorem witness_EveryWellFormedInstructionDecodes : (Instr.ldaddW 31 0 31).wellFormed = true ∧
    (Instr.sys 7 15 15 7 31).wellFormed = true ∧ (Instr.bl 0x2000000).wellFormed = true := by decide

theorem witness_EveryDecodedWordEncodesBack : decodeWord 0xB820003F = .ok (.staddW 0 1) := by rfl

/-- The state after reset with a WFI placed where it fetches. -/
def placed : State := State.reset.withFetchWord 32 0xD503207F

theorem placed_runs : RunsNext placed where
  noEvent := by decide +kernel
  on := by decide +kernel
  free := by decide +kernel
  running := by decide +kernel
  noHalt := by decide +kernel
  littleEndian := by decide +kernel
  noReset := by decide +kernel
  awake := by decide +kernel
  noAsync := by decide +kernel
  noStep := by decide +kernel

theorem placed_translates :
    placed.tick.translate placed.tick.pc .fetch = .ok placed.tick (placed.tick.offMapped 0 .fetch) :=
  translate_off (by decide +kernel) (by decide +kernel)

theorem witness_StepRunsDecodedInstruction : RunsNext placed ∧ ∃ s1 m,
    placed.tick.fetch = .word s1 m 0xD503207F ∧ s1.preExecute m 0xD503207F = none ∧
    decodeWord 0xD503207F = .ok .wfi := by
  refine ⟨placed_runs, { placed.tick.showPbha placed.tick.pc (placed.tick.offMapped 0 .fetch) with
    cache := placed.tick.cache }, placed.tick.offMapped 0 .fetch, ?_, ?_, rfl⟩
  · have hc : placed.tick.fetchCaches (placed.tick.offMapped 0 .fetch) = placed.tick.cache := by
      decide +kernel
    have hw : placed.tick.fetchWord (placed.tick.offMapped 0 .fetch) = 0xD503207F := by
      decide +kernel
    unfold State.fetch
    rw [if_neg (by decide +kernel), placed_translates]
    dsimp only
    rw [show placed.tick.permissionFault (placed.tick.offMapped 0 .fetch) .fetch = none by
      decide +kernel]
    dsimp only
    rw [if_neg (by decide +kernel), if_neg (by decide +kernel), if_neg (by decide +kernel), hc, hw]
  · decide +kernel

theorem witness_FetchReadsInstructionBytes : placed.pc.toNat % 4 = 0 ∧
    placed.translate placed.pc .fetch = .ok placed (placed.offMapped 0 .fetch) ∧
    placed.permissionFault (placed.offMapped 0 .fetch) .fetch = none ∧
    placed.fetchesDevice (placed.offMapped 0 .fetch) = false ∧
    placed.aliasRefused (placed.offMapped 0 .fetch) = false ∧
    placed.busError (placed.offMapped 0 .fetch) 4 = false ∧ placed.cache.old = [] ∧
    placed.cache.dirtyBelow (blockOf (mappedKey (placed.offMapped 0 .fetch))) = none :=
  ⟨by decide +kernel, translate_off (by decide +kernel) (by decide +kernel), by decide +kernel⟩

/-- EL0 with an IRQ asserted on the pin. -/
def irqUser : State :=
  { user with gicDisabled := true, irq := ⟨true, false, false, false, none, false⟩ }

/-- EL0 with an FIQ on the pin, or an SError that an exception entry has synchronised. -/
def fiqUser : State := { irqUser with irq := ⟨false, true, false, false, none, false⟩ }

def serrorUser : State := { irqUser with irq := ⟨false, false, false, false, some 0x11, true⟩ }

/-- An interrupt of the GIC of each group, with both groups enabled in Secure EL0. -/
def gicUser (g : IntGroup) : State :=
  { ((user.put .icc_igrpen0_el1 1).put .icc_igrpen1_el1 1).put .icc_pmr_el1 0xFF with
    gic := ⟨[⟨40, g, 0x10, false⟩], [], [], []⟩ }

/-- Non-secure EL0 with a virtual interrupt on a pin, or with a virtual SError. -/
def virtualUser (hcr : Word) (irq fiq : Bool) : State :=
  { (user.put .scr_el3 0x401).put .hcr_el2 hcr with
    gicDisabled := true, irq := ⟨false, false, irq, fiq, none, false⟩ }

/-- An exception of one kind is pending alone and can be taken. -/
def pendsAlone (s : State) (k : AsyncKind) : Bool :=
  s.inbox == [] && s.power == .on && !s.throttle.dispatchBlock && !s.dbg.halted &&
    !s.dbg.request && !s.tick.bigEndian && !s.tick.resetRequested && !s.asleep &&
    s.tick.isPending k && s.tick.takeable k &&
    allAsync.all (fun j => !s.tick.isPending j || j == k) && (k != .serror || s.irq.due)

theorem witness_PendingAsyncExceptionIsTaken :
    (pendsAlone irqUser .irq && irqUser.gicDisabled && pendsAlone fiqUser .fiq &&
      pendsAlone serrorUser .serror && serrorUser.tick.irq.serror == some 0x11) = true ∧
    (pendsAlone (gicUser .group0) .fiq && pendsAlone (gicUser .group1Secure) .irq) = true ∧
    (gicUser .group0).gicDisabled = false ∧
    (gicUser .group0).gic.pending = [⟨40, .group0, 0x10, false⟩] ∧
    (gicUser .group0).tick.sufficient ⟨40, .group0, 0x10, false⟩ = true ∧
    (pendsAlone (virtualUser 0x10 true false) .virq &&
      pendsAlone (virtualUser 8 false true) .vfiq &&
      pendsAlone (virtualUser 0x120 false false) .vserror) = true := by decide +kernel

def asleep (masked : Bool) : State := { irqUser with sleep := ⟨.wfi, masked, false, false⟩ }

/-- Sleeping, with a halt request that may be obeyed instead of the interrupt. -/
def asleepHalt (masked : Bool) : State :=
  { s0 with
    cfg := { wbConfig with debugAuthenticated := true }
    osLock := false
    dbg := { s0.dbg with hde := true, request := true }
    sleep := ⟨.wfi, masked, false, false⟩ }

theorem witness_WfiWakesUnlessPowerdown : ∀ b, ∀ s ∈ [asleep b, asleepHalt b], s.inbox = [] ∧
    s.power = .on ∧ s.throttle.dispatchBlock = false ∧ s.tick.resetRequested = false ∧
    s.sleep.lowPower = .wfi ∧ s.sleep.wakeMasked = b ∧ s.dbg.halted = false ∧
    s.tick.bigEndian = false ∧ s.pc.toNat + 4 < 2 ^ 64 ∧
    (s.tick.physIrq || (s.dbg.request && s.haltingAllowed)) = true := by decide +kernel

def blocked (l : List EnvEvent) : State :=
  { s0 with throttle := { s0.throttle with dispatchBlock := true }, inbox := l }

theorem witness_DispatchBlockHoldsCore : (blocked []).throttle.dispatchBlock = true ∧
    (blocked []).power = .on ∧ (blocked []).inbox = [] ∧
    (blocked [.snoop 0x240 true]).inbox = .snoop 0x240 true :: [] := by decide +kernel

theorem witness_WfeClearsEventOrSleeps : s0.eventReg = false ∧ s0.sleepTrap true = none ∧
    { s0 with eventReg := true }.eventReg = true ∧ s0.pc.toNat + 4 < 2 ^ 64 := by
  exact ⟨by decide +kernel, by decide +kernel, rfl, hasNext_s0⟩

theorem witness_WfiCompletesOrSleeps : bit ((s0.put .rmr_el3 3).ctl .rmr_el3) 1 = true ∧
    (bit (irqUser.ctl .rmr_el3) 1 = false ∧ irqUser.powerdownEnabled = false ∧
      irqUser.wfiWakes = true ∧ irqUser.pc.toNat + 4 < 2 ^ 64) ∧
    (bit (s0.ctl .rmr_el3) 1 = false ∧ s0.wfiWakes = false ∧ s0.sleepTrap false = none) ∧
    (s0.put .imp_cpupwrctlr_el1 1).powerdownEnabled = true ∧
    (s0.put .imp_cpupwrctlr_el1 1).sleepTrap false = none := by decide +kernel

/-- EL1 in the Non-secure state, where EL2 exists, with a word in SCR_EL3 and one in HCR_EL2. -/
def nonSecure (scr hcr : Word) : State := (s0.put .scr_el3 (0x401 ||| scr)).put .hcr_el2 hcr

theorem witness_TrappedSleepInstruction :
    ((nonSecure 0x3000 0).el < 3 ∧ bit (nonSecure 0x3000 0).scr 13 = true ∧
      bit (nonSecure 0x3000 0).scr 12 = true ∧ (nonSecure 0x3000 0).eventReg = false ∧
      bit ((nonSecure 0x3000 0).ctl .rmr_el3) 1 = false ∧ (nonSecure 0x3000 0).wfiWakes = false) ∧
    ((nonSecure 0 0x6000).el < 2 ∧ bit (nonSecure 0 0x6000).scr 13 = false ∧
      bit (nonSecure 0 0x6000).scr 12 = false ∧ (nonSecure 0 0x6000).el2Enabled = true ∧
      bit (nonSecure 0 0x6000).hcr 14 = true ∧ bit (nonSecure 0 0x6000).hcr 13 = true ∧
      (nonSecure 0 0x6000).wfiWakes = false ∧ (nonSecure 0 0x6000).eventReg = false) ∧
    (user.el = 0 ∧ bit user.scr 13 = false ∧ bit user.scr 12 = false ∧ user.el2Enabled = false ∧
      bit user.sctlr 18 = false ∧ bit user.sctlr 16 = false ∧ user.eventReg = false ∧
      user.wfiWakes = false ∧ bit (user.ctl .rmr_el3) 1 = false) := by decide +kernel

def withSError (s : State) : State := { s with irq := ⟨false, false, false, false, some 0x11, false⟩ }

theorem witness_EsbTakesOrDefersSError :
    (s0.irq.serror = none ∧ s0.isPending .vserror = false ∧ s0.pc.toNat + 4 < 2 ^ 64) ∧
    ((withSError s0).irq.serror = some 0x11 ∧ (withSError s0).takeable .serror = false ∧
      (withSError s0).isPending .vserror = false) ∧
    (withSError user).irq.serror = some 0x11 ∧ (withSError user).takeable .serror = true := by
  decide +kernel

theorem witness_ClrexOpensMonitor : s0.hasNext := hasNext_s0

theorem witness_IsbSynchronisesContext : s0.hasNext := hasNext_s0

theorem witness_RegisterWriteSeenAfterIsb : s0.cfg.regAt ⟨1, 0, 2, 0, 0⟩ = some .ttbr0_el1 ∧
    s0.sysGate .ttbr0_el1 ⟨1, 0, 2, 0, 0⟩ 3 false = none ∧ s0.olds .ttbr0_el1 = [] ∧
    s0.pc.toNat + 4 < 2 ^ 64 := by
  refine ⟨by decide +kernel, ?_, by decide +kernel, hasNext_s0⟩
  unfold State.sysGate
  rw [if_neg (by decide +kernel)]
  rfl

theorem witness_RamindexCompletesAtEl3 : wb.el = 3 ∧ wb.pc.toNat + 4 < 2 ^ 64 := by
  decide +kernel

theorem granted (s : State) (r : Req) (k : AccessKind)
    (h : ((s.stage1On || s.stage2On) == false && decide (r.va.toNat < 2 ^ 40) &&
      s.permissionFault (s.offMapped r.va k) k == none) = true) :
    Granted s r k s (s.offMapped r.va k) := by
  simp only [Bool.and_eq_true, beq_iff_eq, decide_eq_true_eq] at h
  exact off_granted h.1.1 h.1.2 h.2

theorem unhindered (s : State) (r : Req) (m : Mapped)
    (h : (s.cfg.pbhaNeutral && s.osLock && !m.attr.tagged) = true) : Unhindered s r m := by
  simp only [Bool.and_eq_true, Bool.not_eq_true'] at h
  refine ⟨.inl h.1.1, ?_, ?_⟩
  · simp [State.tagFault, h.2]
  · simp [State.watchpointHit, State.monitorDebug, State.debugEnabled, State.haltingAllowed, h.1.2]

/-- With translation off, an access of each kind at 0x9000, and one on the utility bus. -/
theorem witness_DcZvaZeroesBlock :
    (mem9000.el < 2 ∧ mem9000.el2Enabled = false ∧ mem9000.el ≠ 0 ∧ mem9000.bigEndian = false ∧
      mem9000.translate 0x9000 .write = .ok mem9000 (mem9000.offMapped 0x9000 .write) ∧
      mem9000.permissionFault (mem9000.offMapped 0x9000 .write) .write = none ∧
      mem9000.xr 1 = 0x9000 ∧ mem9000.hasNext ∧
      mem9000.onUtilityBus (blockStart (mem9000.offMapped 0x9000 .write)) = false ∧
      Unhindered mem9000 (zvaReq 0x9000) (blockStart (mem9000.offMapped 0x9000 .write)) ∧
      Memory.wf mem9000.mem) ∧
    (onBus.translate onBusAt .write = .ok onBus onBusMap ∧ onBus.xr 1 = onBusAt ∧
      onBus.permissionFault onBusMap .write = none ∧
      onBus.onUtilityBus (blockStart onBusMap) = true ∧
      Unhindered onBus (zvaReq onBusAt) (blockStart onBusMap)) ∧
    ((nonSecure 0 0x10000000).el < 2 ∧ (nonSecure 0 0x10000000).el2Enabled = true ∧
      bit (nonSecure 0 0x10000000).hcr 28 = true) ∧
    user.el = 0 ∧ user.el2Enabled = false ∧ bit user.sctlr 14 = false := by
  refine ⟨⟨by decide +kernel, by decide +kernel, by decide +kernel, by decide +kernel,
    translate_off (by decide +kernel) (by decide +kernel), by decide +kernel, by decide +kernel,
    hasNext_s0, by decide +kernel, unhindered _ _ _ (by decide +kernel), by decide +kernel⟩,
    ⟨translate_off (by decide +kernel) (by decide +kernel), by decide +kernel, by decide +kernel,
      by decide +kernel, unhindered _ _ _ (by decide +kernel)⟩, by decide +kernel⟩

/-- A set and a way beyond the 256 sets of the L1 data cache, and the last place of each level. -/
theorem witness_DcCiswCleansPlace : user.el = 0 ∧ s0.el ≠ 0 ∧ s0.hcrBelow 22 = false ∧
    s0.setWay (0x100 <<< 6) = none ∧ s0.setWay 4 = none ∧
    s0.setWay (0xC0000000 ||| 0xFF <<< 6) = some (0, 255, 3) ∧
    s0.setWay (0xE0000002 ||| 0x3FF <<< 6) = some (1, 1023, 7) ∧
    (nonSecure 0 0x400000).el = 1 ∧ (nonSecure 0 0x400000).el2Enabled = true ∧
    bit (nonSecure 0 0x400000).hcr 22 = true := by decide +kernel

theorem witness_DcIvacInvalidatesBlock : mem9000.el ≠ 0 ∧ mem9000.hcrBelow 23 = false ∧
    mem9000.bigEndian = false ∧
    mem9000.xr 1 = 0x9000 ∧
    Granted mem9000 (ivacReq 0x9000) .write mem9000 (mem9000.offMapped 0x9000 .write) ∧
    Unhindered mem9000 (ivacReq 0x9000) (mem9000.offMapped 0x9000 .write) ∧
    Memory.wf mem9000.mem ∧ ExclusiveCaches mem9000.cache ∧
    mem9000.cache.dirtyBelow (blockOf 0x9000) = none ∧
    (nonSecure 0 0x800000).el = 1 ∧ (nonSecure 0 0x800000).el2Enabled = true ∧
    bit (nonSecure 0 0x800000).hcr 23 = true :=
  ⟨by decide +kernel, by decide +kernel, by decide +kernel, by decide +kernel,
    granted _ _ _ (by decide +kernel), unhindered _ _ _ (by decide +kernel), by decide +kernel,
    ⟨List.Pairwise.nil, fun _ h => absurd h List.not_mem_nil,
      fun _ h => absurd h List.not_mem_nil⟩, by decide +kernel⟩

theorem witness_SysOutsideNamedOperations : (Instr.sys 0 11 0 0 31).wellFormed = true ∧
    (Instr.sys 3 7 5 1 0).wellFormed = true := by decide

theorem sysGate_none {s : State} {r : SysReg} {e : SysEnc} {rt : Reg} {read : Bool}
    (h : (!s.sysAbsent r && !s.sysUndefined r read && s.trapLevel r == none &&
      decide (r.info.group ∉ [SysGroup.fp, .sve, .amu])) = true) : s.sysGate r e rt read = none := by
  simp only [Bool.and_eq_true, Bool.not_eq_true', beq_iff_eq, decide_eq_true_eq, List.mem_cons,
    List.not_mem_nil, or_false, not_or] at h
  unfold State.sysGate
  have hl : accessLevel r read ≠ none := fun e => by
    have := h.1.1.2
    simp [State.sysUndefined, State.levelAllows, e] at this
  rw [if_neg (by simp [h.1.1.1, hl]), if_neg (by simp [h.2.2.2])]
  dsimp only
  rw [if_neg (by simp [h.1.1.2])]
  split
  · exact absurd ‹_› h.2.1
  · exact absurd ‹_› h.2.2.1
  · rw [h.1.2]
    rfl

/-- After a RAMINDEX at EL3, and an ISB after it. -/
def ramRead (synced : Bool) : State := { wb with ram := ⟨0, 0, true, synced⟩ }

theorem witness_MrsReadsRegister : s0.cfg.regAt ⟨1, 0, 12, 0, 0⟩ = some .vbar_el1 ∧
    s0.sysGate .vbar_el1 ⟨1, 0, 12, 0, 0⟩ 3 true = none ∧
    SysReg.vbar_el1.info.group ≠ .ramData ∧ SysReg.ttbr0_el1 ∈ storedRegs ∧ s0.hasNext ∧
    s0.sysGate .icc_iar1_el1 ⟨1, 0, 12, 12, 0⟩ 3 true = none ∧
    s0.sysGate .dbgdtrx_el0 ⟨0, 3, 0, 5, 0⟩ 3 true = none ∧
    (∀ p ∈ ramDataRegs, p.1.info.group = .ramData) ∧
    (∀ b, (ramRead b).cfg.regAt ⟨1, 6, 15, 0, 0⟩ = some .ramdata0 ∧
      (ramRead b).sysGate .ramdata0 ⟨1, 6, 15, 0, 0⟩ 3 true = none ∧
      (ramRead b).ram.synced = b) :=
  ⟨by decide +kernel, sysGate_none (by decide +kernel), by decide +kernel, by decide +kernel,
    hasNext_s0, sysGate_none (by decide +kernel), sysGate_none (by decide +kernel),
    by decide +kernel, fun b => ⟨by cases b <;> decide +kernel,
      sysGate_none (by cases b <;> decide +kernel), rfl⟩⟩

theorem witness_MsrWritesRegister : s0.cfg.regAt ⟨1, 0, 12, 0, 0⟩ = some .vbar_el1 ∧
    s0.sysGate .vbar_el1 ⟨1, 0, 12, 0, 0⟩ 3 false = none ∧ SysReg.ttbr0_el1 ∈ storedRegs ∧
    s0.sysGate .ttbr0_el1 ⟨1, 0, 2, 0, 0⟩ 3 false = none :=
  ⟨by decide +kernel, sysGate_none (by decide +kernel), by decide +kernel,
    sysGate_none (by decide +kernel)⟩

/-- A register of a higher level, one that is read only and one that is written only; and one of the
Activity Monitors that is read only, with its trap on. -/
theorem witness_RegisterBelowItsLevelUndefined :
    SysReg.amcgcr_el0.info.group = .amu ∧ SysReg.amcgcr_el0.info.writeLevel = none ∧
    (s0.put .cptr_el3 (1 <<< 30)).amuTrap = some 3 ∧
    s0.cfg.regAt ⟨1, 4, 12, 0, 0⟩ = some .vbar_el2 ∧
    (∃ l, SysReg.vbar_el2.info.readLevel = some l ∧ s0.el < l) ∧
    s0.cfg.regAt ⟨1, 0, 0, 0, 0⟩ = some .midr_el1 ∧ SysReg.midr_el1.info.writeLevel = none ∧
    s0.cfg.regAt ⟨1, 0, 12, 8, 1⟩ = some .icc_eoir0_el1 ∧
    SysReg.icc_eoir0_el1.info.readLevel = none :=
  ⟨by decide +kernel, by decide +kernel, by decide +kernel, by decide +kernel,
    ⟨2, by decide +kernel⟩, by decide +kernel, by decide +kernel, by decide +kernel,
    by decide +kernel⟩

theorem witness_GicRegisterUndefinedWhenDisabled : irqUser.gicDisabled = true ∧
    irqUser.cfg.regAt ⟨1, 0, 12, 12, 7⟩ = some .icc_igrpen1_el1 ∧
    SysReg.icc_igrpen1_el1.info.group = .gic ∧
    irqUser.cfg.regAt ⟨1, 4, 12, 15, 0⟩ = none ∧ SysEnc.isGic ⟨1, 4, 12, 15, 0⟩ = true := by
  decide +kernel

theorem witness_AmuAccessTrapped :
    s0.cfg.regAt ⟨1, 3, 13, 4, 0⟩ = some .amevcntr00_el0 ∧
    SysReg.amevcntr00_el0.info.group = .amu ∧
    (∀ read, (accessLevel .amevcntr00_el0 read).isSome = true) ∧
    ((nonSecure 0 0).put .cptr_el2 (1 <<< 30)).el2Enabled = true ∧
    bit (((nonSecure 0 0).put .cptr_el2 (1 <<< 30)).ctl .cptr_el2) 30 = true ∧
    (s0.put .cptr_el3 (1 <<< 30)).el2Enabled = false ∧
    bit ((s0.put .cptr_el3 (1 <<< 30)).ctl .cptr_el3) 30 = true ∧
    user.el2Enabled = false ∧
    bit (user.ctl .cptr_el3) 30 = false ∧ bit (user.ctl .amuserenr_el0) 0 = false := by
  decide +kernel

/-- With both keys disabled, the authenticated forms branch to their pointer. -/
theorem witness_CallsLinkAndBranch : s0.hasNext ∧ s0.authI false (s0.xr 3) 0 = some (s0.xr 3) ∧
    s0.authI true (s0.xr 3) 0 = some (s0.xr 3) ∧
    s0.authI false (s0.xr 3) s0.spCur = some (s0.xr 3) ∧
    s0.authI true (s0.xr 3) (s0.xr 4) = some (s0.xr 3) :=
  ⟨hasNext_s0, by decide +kernel, by decide +kernel, by decide +kernel, by decide +kernel⟩

/-- EL1 with both instruction keys enabled, on a core with FPAC. -/
def keyed : State :=
  { s0.put .sctlr_el1 0xC080101C with cfg := { wbConfig with fpacImplemented := true } }

theorem canonical_code (w : Word) : canonicalPointer ((0 &&& ~~~pacMask) ||| (w &&& pacMask)) = 0 := by
  have h : bit ((0 &&& ~~~pacMask) ||| (w &&& pacMask)) 55 = false := by
    unfold bit pacMask
    simp
  unfold canonicalPointer
  rw [h, if_neg (by decide)]
  have h2 : (0 &&& ~~~pacMask) ||| (w &&& pacMask) = w &&& pacMask := by simp
  rw [h2, BitVec.and_assoc]
  exact (congrArg (w &&& ·) (by decide : pacMask &&& 0x0000FFFFFFFFFFFF = 0#64)).trans
    BitVec.and_zero

/-- Two pointers that differ in their code alone do not both pass. -/
theorem some_pointer_fails (s : State) (keyB : Bool) (w : Word) :
    ∃ p, s.authPasses keyB p w = false := by
  by_cases h : s.authPasses keyB 0 w = false
  · exact ⟨0, h⟩
  · refine ⟨1#64 <<< 63, ?_⟩
    have h0 := eq_of_beq (Bool.eq_true_of_not_eq_false h)
    unfold State.authPasses
    rw [show canonicalPointer 0 = 0 by decide] at h0
    rw [show canonicalPointer (1#64 <<< 63) = 0 by decide, h0]
    decide

/-- A pointer with its code passes; of two pointers that differ in their codes one fails. -/
theorem witness_AuthenticationOutcomes (keyB : Bool) (w : Word) :
    s0.authEnabled keyB = false ∧ keyed.authEnabled keyB = true ∧
    keyed.authPasses keyB (keyed.addPac keyB 0 w) w = true ∧
    ∃ p, keyed.authPasses keyB p w = false := by
  refine ⟨by cases keyB <;> decide +kernel, by cases keyB <;> decide +kernel, ?_,
    some_pointer_fails _ _ _⟩
  unfold State.authPasses
  rw [show canonicalPointer (keyed.addPac keyB 0 w) = 0 from canonical_code _]
  exact beq_self_eq_true _

/-- Both keys enabled on a core without FPAC, with TBI0 set. -/
def keyedTagged : State := (s0.put .sctlr_el1 0xC080101C).put .tcr_el1 0x2000000000

/-- The state after the instruction, from which the next fetch is made, has the translation control
registers of the state before it. -/
theorem witness_AuthenticationOutcomes_noFpac (keyB : Bool) (w : Word) :
    keyedTagged.cfg.fpacImplemented = false ∧ keyedTagged.authEnabled keyB = true ∧
    (∃ p, keyedTagged.authPasses keyB p w = false) ∧
    ∀ r ∈ [SysReg.tcr_el1, .tcr_el2, .tcr_el3], keyedTagged.advanced.get r = keyedTagged.get r ∧
      ∀ w ∈ keyedTagged.advanced.olds r, w ∈ keyedTagged.olds r := by
  refine ⟨by rfl, by cases keyB <;> decide +kernel, some_pointer_fails _ _ _, fun r _ => ?_⟩
  generalize keyedTagged = s
  exact ⟨rfl, fun _ h => h⟩

theorem witness_AuthenticationFaultTaken (keyB : Bool) (w : Word) :
    keyed.el ≠ 0 ∧ keyed.returnTrapped = false ∧ ∃ p, keyed.authI keyB p w = none := by
  obtain ⟨-, h1, -, p, h2⟩ := witness_AuthenticationOutcomes keyB w
  refine ⟨by decide +kernel, by decide +kernel, p, ?_⟩
  unfold State.authI
  rw [h1, h2]
  rfl

theorem witness_ReturnsPopAndBranch : s0.authI false (s0.xr 30) s0.spCur = some (s0.xr 30) ∧
    s0.authI true (s0.xr 30) s0.spCur = some (s0.xr 30) := by decide +kernel

theorem witness_ExceptionReturnRestoresState : user.el = 0 ∧ s0.el ≠ 0 ∧ s0.el2Enabled = false ∧
    (nonSecure 0 (1 <<< 42)).el = 1 ∧ (nonSecure 0 (1 <<< 42)).el2Enabled = true ∧
    bit (nonSecure 0 (1 <<< 42)).hcr 42 = true ∧
    s0.authI false (s0.get (elrOf s0.el)) s0.spCur = some (s0.get (elrOf s0.el)) ∧
    s0.authI true (s0.get (elrOf s0.el)) s0.spCur = some (s0.get (elrOf s0.el)) := by
  decide +kernel

theorem reqOf_ok (n : Nat) (ld st : Bool) (hn : n ∈ [1, 2, 4, 8, 16]) :
    AddressOk mem9000 (reqOf mem9000 n ld st) := by
  simp only [List.mem_cons, List.not_mem_nil, or_false] at hn
  have hb : mem9000.bigEndian = false := by decide +kernel
  refine ⟨fun h => absurd h (by simp [reqOf, State.baseReq]), fun _ => ?_, hb⟩
  show (mem9000.base 1).toNat % n = 0
  rw [show (mem9000.base 1).toNat = 0x9000 by decide +kernel]
  rcases hn with rfl | rfl | rfl | rfl | rfl <;> rfl

/-- The mapping of 0x9000. -/
def map9000 : Mapped := mem9000.offMapped 0x9000 .read

/-- Both translations of an access at 0x9000, for every size. -/
theorem reqOf_granted (n : Nat) (ld st : Bool) :
    Granted mem9000 (reqOf mem9000 n ld st) .read mem9000 map9000 ∧
    Granted mem9000 (reqOf mem9000 n ld st) .write mem9000 map9000 ∧
    Unhindered mem9000 (reqOf mem9000 n ld st) map9000 := by
  have hv : (reqOf mem9000 n ld st).va = 0x9000 := by
    show mem9000.base 1 = 0x9000
    decide +kernel
  have hr := granted mem9000 (reqOf mem9000 n ld st) .read (by rw [hv]; decide +kernel)
  have hw := granted mem9000 (reqOf mem9000 n ld st) .write (by rw [hv]; decide +kernel)
  rw [hv] at hr hw
  exact ⟨hr, hw, unhindered _ _ _ (by decide +kernel)⟩

/-- An access of any size on the utility bus completes too. -/
theorem onBus_ready (n : Nat) (ld st : Bool) (hn : n ∈ [1, 2, 4, 8, 16]) :
    AddressOk onBus (reqOf onBus n ld st) ∧
    Granted onBus (reqOf onBus n ld st) .read onBus onBusMap ∧
    Granted onBus (reqOf onBus n ld st) .write onBus onBusMap ∧
    Unhindered onBus (reqOf onBus n ld st) onBusMap ∧ onBus.hasMonitor onBusMap = true ∧
    onBus.isCached onBusMap = true ∧ onBus.onUtilityBus onBusMap = true ∧
    mem9000.onUtilityBus map9000 = false := by
  have hv : (reqOf onBus n ld st).va = onBusAt := by
    show onBus.base 1 = onBusAt
    decide +kernel
  have hr := granted onBus (reqOf onBus n ld st) .read (by rw [hv]; decide +kernel)
  have hw := granted onBus (reqOf onBus n ld st) .write (by rw [hv]; decide +kernel)
  rw [hv] at hr hw
  refine ⟨⟨fun h => absurd h (by simp [reqOf, State.baseReq]), fun _ => ?_, by decide +kernel⟩, hr,
    hw, unhindered _ _ _ (by decide +kernel), by decide +kernel⟩
  simp only [List.mem_cons, List.not_mem_nil, or_false] at hn
  rw [hv]
  show onBusAt.toNat % n = 0
  rcases hn with rfl | rfl | rfl | rfl | rfl <;> rfl

/-- The state between a Load-Exclusive of 0x9000 and its Store-Exclusive, with no failure left. -/
def paired (sz : Size) : State :=
  { mem9000 with
    monitor := .exclusive (tagOf map9000.pa) map9000.ns
    events := [.exclusiveRead (mappedKey map9000) sz.bytes false map9000.attr] }

theorem paired_passes (sz : Size) : (paired sz).monitorHolds map9000.pa map9000.ns = true ∧
    (paired sz).cleanPair map9000 sz.bytes = true ∧ (paired sz).exclBudget = 0 ∧
    (paired sz).storePasses map9000 sz.bytes = true := by cases sz <;> decide +kernel

theorem witness_LoadExclusiveReadsAndTags (sz : Size) :
    AddressOk mem9000 (reqOf mem9000 sz.bytes true false) ∧
    Granted mem9000 (reqOf mem9000 sz.bytes true false) .read mem9000 map9000 ∧
    Unhindered mem9000 (reqOf mem9000 sz.bytes true false) map9000 ∧
    mem9000.hasMonitor map9000 = true ∧ mem9000.busError map9000 sz.bytes = false ∧ mem9000.hasNext :=
  ⟨reqOf_ok _ _ _ (by cases sz <;> decide), (reqOf_granted _ _ _).1, (reqOf_granted _ _ _).2.2,
    by decide +kernel, by cases sz <;> decide +kernel, hasNext_s0⟩

theorem witness_LoadExclusivePairReadsAndTags (wide : Bool) :
    AddressOk mem9000 (reqOf mem9000 (2 * if wide then 8 else 4) true false) ∧
    Granted mem9000 (reqOf mem9000 (2 * if wide then 8 else 4) true false) .read mem9000 map9000 ∧
    Unhindered mem9000 (reqOf mem9000 (2 * if wide then 8 else 4) true false) map9000 ∧
    mem9000.hasMonitor map9000 = true ∧ mem9000.busError map9000 (2 * if wide then 8 else 4) = false ∧ mem9000.hasNext :=
  ⟨reqOf_ok _ _ _ (by cases wide <;> decide), (reqOf_granted _ _ _).1, (reqOf_granted _ _ _).2.2,
    by decide +kernel, by cases wide <;> decide +kernel, hasNext_s0⟩

theorem witness_StoreExclusiveStoresOrFails (sz : Size) :
    (4 : Reg) ≠ 2 ∧ ((4 : Reg) = 1 → (1 : Reg) = 31) ∧
    AddressOk mem9000 (reqOf mem9000 sz.bytes false true) ∧
    Granted mem9000 (reqOf mem9000 sz.bytes false true) .write mem9000 map9000 ∧
    Unhindered mem9000 (reqOf mem9000 sz.bytes false true) map9000 ∧
    mem9000.hasMonitor map9000 = true ∧ mem9000.hasNext ∧ Memory.wf mem9000.mem ∧
    mem9000.monitor = .opened :=
  ⟨by decide, by decide, reqOf_ok _ _ _ (by cases sz <;> decide), (reqOf_granted _ _ _).2.1,
    (reqOf_granted _ _ _).2.2, by decide +kernel, hasNext_s0, by decide +kernel, rfl⟩

theorem witness_StoreExclusivePairStoresOrFails (wide : Bool) :
    (4 : Reg) ≠ 2 ∧ (4 : Reg) ≠ 3 ∧ ((4 : Reg) = 1 → (1 : Reg) = 31) ∧
    AddressOk mem9000 (reqOf mem9000 (2 * if wide then 8 else 4) false true) ∧
    Granted mem9000 (reqOf mem9000 (2 * if wide then 8 else 4) false true) .write mem9000 map9000 ∧
    Unhindered mem9000 (reqOf mem9000 (2 * if wide then 8 else 4) false true) map9000 ∧
    mem9000.hasMonitor map9000 = true ∧ mem9000.hasNext ∧ Memory.wf mem9000.mem :=
  ⟨by decide, by decide, by decide, reqOf_ok _ _ _ (by cases wide <;> decide),
    (reqOf_granted _ _ _).2.1, (reqOf_granted _ _ _).2.2, by decide +kernel, hasNext_s0,
    by decide +kernel⟩

/-- An atomic access of every size, at 0x9000, with both translations and no state between. -/
theorem witness_AtomicLoadUpdates (sz : Size) :
    AddressOk mem9000 (reqOf mem9000 sz.bytes true true) ∧
    Granted mem9000 (reqOf mem9000 sz.bytes true true) .read mem9000 map9000 ∧
    Granted mem9000 (reqOf mem9000 sz.bytes true true) .write mem9000 map9000 ∧
    Unhindered mem9000 (reqOf mem9000 sz.bytes true true) map9000 ∧
    mem9000.isCached map9000 = true ∧ mem9000.hasNext ∧ Memory.wf mem9000.mem :=
  ⟨reqOf_ok _ _ _ (by cases sz <;> decide), (reqOf_granted _ _ _).1, (reqOf_granted _ _ _).2.1,
    (reqOf_granted _ _ _).2.2, by decide +kernel, hasNext_s0, by decide +kernel⟩

theorem witness_AtomicStoreUpdates (sz : Size) :
    AddressOk mem9000 (reqOf mem9000 sz.bytes true true) ∧
    Granted mem9000 (reqOf mem9000 sz.bytes true true) .read mem9000 map9000 ∧
    Granted mem9000 (reqOf mem9000 sz.bytes true true) .write mem9000 map9000 ∧
    Unhindered mem9000 (reqOf mem9000 sz.bytes true true) map9000 ∧
    mem9000.isCached map9000 = true ∧ mem9000.hasNext ∧ Memory.wf mem9000.mem :=
  witness_AtomicLoadUpdates sz

theorem settled_self (s : State) (w : Bool) : s.settled s w = s := by
  cases w <;> rfl

/-- X0 holds the old value at the size of the access for a compare that holds, X2 does not. -/
theorem witness_CompareAndSwapUpdates (sz : Size) (cmp : Data) :
    AddressOk mem9000 (reqOf mem9000 sz.bytes true true) ∧
    Granted mem9000 (reqOf mem9000 sz.bytes true true) .read mem9000 map9000 ∧
    Granted mem9000 (reqOf mem9000 sz.bytes true true) .write mem9000 map9000 ∧
    mem9000 = mem9000.settled mem9000 (mem9000.casWrites map9000 sz.bytes cmp) ∧
    Unhindered mem9000 (reqOf mem9000 sz.bytes true true) map9000 ∧
    mem9000.isCached map9000 = true ∧ mem9000.hasNext ∧ Memory.wf mem9000.mem :=
  have h := witness_AtomicLoadUpdates sz
  ⟨h.1, h.2.1, h.2.2.1, (settled_self _ _).symm, h.2.2.2.1, h.2.2.2.2⟩

/-- The compare holds with one value of the compare register and fails with another. -/
theorem cas_compares : mem9000.loadData map9000 8 = lowBytes 8 0x44 ∧
    mem9000.loadData map9000 8 ≠ lowBytes 8 0x55 := by decide +kernel

theorem witness_CompareAndSwapPairUpdates (wide : Bool) (cmp : Data) :
    (4 : Reg).toNat % 2 = 0 ∧ (30 : Reg).toNat % 2 = 0 ∧ (5 : Reg).toNat % 2 = 1 ∧
    AddressOk mem9000 (reqOf mem9000 (2 * if wide then 8 else 4) true true) ∧
    Granted mem9000 (reqOf mem9000 (2 * if wide then 8 else 4) true true) .read mem9000 map9000 ∧
    Granted mem9000 (reqOf mem9000 (2 * if wide then 8 else 4) true true) .write mem9000 map9000 ∧
    mem9000 = mem9000.settled mem9000
      (mem9000.casWrites map9000 (2 * if wide then 8 else 4) cmp) ∧
    Unhindered mem9000 (reqOf mem9000 (2 * if wide then 8 else 4) true true) map9000 ∧
    mem9000.isCached map9000 = true ∧ mem9000.hasNext ∧ Memory.wf mem9000.mem :=
  ⟨by decide, by decide, by decide, reqOf_ok _ _ _ (by cases wide <;> decide),
    (reqOf_granted _ _ _).1, (reqOf_granted _ _ _).2.1, (settled_self _ _).symm,
    (reqOf_granted _ _ _).2.2, by decide +kernel, hasNext_s0, by decide +kernel⟩

theorem witness_PrefetchChangesNothing : s0.hasNext ∧ s0.spMisaligned = false ∧
    (2 : BitVec 3).getLsbD 1 = true ∧ (5 : BitVec 3).getLsbD 1 = false :=
  ⟨hasNext_s0, by decide +kernel, by decide, by decide⟩

/-- An SP that is not a multiple of 16, and addresses one below and one above a multiple. -/
theorem witness_MisalignedAccessFaults :
    { s0 with sp := s0.sp.set 1 0x9808 }.spMisaligned = true ∧ s0.spMisaligned = false ∧
    s0.bigEndian = false ∧ (2 : BitVec 3).getLsbD 1 = true ∧
    ((s0.setX 1 0x9001).base 1).toNat % 2 ≠ 0 ∧ ((s0.setX 1 0x9007).base 1).toNat % 8 ≠ 0 ∧
    ((s0.setX 1 0x9008).base 1).toNat % 16 ≠ 0 := by decide +kernel

/-- X1 is the first address above the 40-bit physical addresses. -/
def above : State := s0.setX 1 0x10000000000

theorem above_faults (k : AccessKind) : above.translate 0x10000000000 k =
    .fault above ⟨.addressSize, 0, false, false, 0⟩ := by
  unfold State.translate State.translateFor
  rw [if_neg (by decide +kernel), if_neg (by cases k <;> decide +kernel)]

/-- A page of 4KB at 0x9000 that may only be read. -/
def readOnlyPage : TlbEntry where
  va := 0x9000
  pa := 0x9000
  ns := false
  logSize := 12
  attr := ⟨.normal .writeBack .writeBack, true, false, true, false⟩
  perms := Perms.all.readOnly
  level := 3
  s2Perms := .all
  s2Level := 0
  ipa := 0x9000
  dbm := false
  guarded := false
  regime := .secureEl10
  asid := 0
  global := true
  vmid := 0
  s1Pbha := 0
  s1En := 0
  s2Pbha := 0
  s2En := 0

/-- EL1 with stage 1 on and that page in the data TLB; X1 is 0x9000. -/
def readOnly : State := { mem9000.put .sctlr_el1 0x80101D with tlb := ⟨[], [readOnlyPage], []⟩ }

theorem readOnly_translates (k : AccessKind) (h : k = .read ∨ k = .write) :
    readOnly.translate 0x9000 k = .ok readOnly (readOnlyPage.mapped 0x9000) := by
  unfold State.translate State.translateFor State.lookup
  rw [if_pos (by decide +kernel), if_neg (by rcases h with rfl | rfl <;> decide),
    if_neg (by rcases h with rfl | rfl <;> decide +kernel)]
  rw [show readOnly.serving (readOnly.l1Tlb k) 0x9000 k = some readOnlyPage by
    rcases h with rfl | rfl <;> decide +kernel]

/-- The base at the size of the access, for the loads, the stores, the atomics and the cache
instructions: an address that does not translate, and one that may be read and not written. -/
theorem witness_FailedAccessDataAbort (n : Nat) (hn : n ∈ [1, 2, 4, 8, 16]) (ld st : Bool) :
    (above.base 1 = 0x10000000000 ∧ above.xr 1 = 0x10000000000 ∧
      AddressOk above (above.baseReq 1 n ld st) ∧ AddressOk above (zvaReq 0x10000000000) ∧
      AddressOk above (ivacReq 0x10000000000) ∧
      (∀ k, above.translate 0x10000000000 k =
        .fault above ⟨.addressSize, 0, false, false, 0⟩) ∧
      above.zvaTrap 1 = none ∧ above.el ≠ 0 ∧ above.hcrBelow 23 = false ∧ above.hasNext ∧
      (∀ r, above.watchpointHit r = false)) ∧
    (readOnly.base 1 = 0x9000 ∧ AddressOk readOnly (readOnly.baseReq 1 n ld st) ∧
      Granted readOnly (readOnly.baseReq 1 n ld st) .read readOnly (readOnlyPage.mapped 0x9000) ∧
      readOnly.translate 0x9000 .write = .ok readOnly (readOnlyPage.mapped 0x9000) ∧
      readOnly.permissionFault (readOnlyPage.mapped 0x9000) .write =
        some ⟨.permission, 3, false, false, 0⟩ ∧
      readOnly.loadData (readOnlyPage.mapped 0x9000) 8 =
        (readOnly.setX 3 0x44).xData 3 8) := by
  have ha : above.base 1 = 0x10000000000 := by decide +kernel
  have hr : readOnly.base 1 = 0x9000 := by decide +kernel
  have hv : (readOnly.baseReq 1 n ld st).va = 0x9000 := hr
  simp only [List.mem_cons, List.not_mem_nil, or_false] at hn
  refine ⟨⟨ha, by decide +kernel, ⟨fun h => absurd h (by simp [State.baseReq]), fun _ => ?_,
    by decide +kernel⟩, ⟨fun h => absurd h (by simp [zvaReq]), fun h => absurd h (by simp [zvaReq]),
    by decide +kernel⟩, ⟨fun h => absurd h (by simp [ivacReq]),
    fun h => absurd h (by simp [ivacReq]), by decide +kernel⟩, above_faults, ?_, by decide +kernel,
    by decide +kernel, by show _ < _; decide +kernel, fun r => ?_⟩,
    hr, ⟨fun h => absurd h (by simp [State.baseReq]), fun _ => ?_, by decide +kernel⟩,
    ⟨by rw [hv]; exact readOnly_translates .read (.inl rfl), by decide +kernel⟩,
    readOnly_translates .write (.inr rfl), by decide +kernel, by decide +kernel⟩
  · show (above.base 1).toNat % n = 0
    rw [ha]
    rcases hn with rfl | rfl | rfl | rfl | rfl <;> rfl
  · unfold State.zvaTrap
    rw [if_neg (by decide +kernel), if_neg (by decide +kernel)]
  · simp [State.watchpointHit, State.monitorDebug, State.debugEnabled, State.haltingAllowed,
      show above.osLock = true by decide +kernel]
  · show (readOnly.base 1).toNat % n = 0
    rw [hr]
    rcases hn with rfl | rfl | rfl | rfl | rfl <;> rfl

theorem witness_WatchpointStopsStoreExclusive (sz : Size) :
    AddressOk mem9000 (reqOf mem9000 sz.bytes false true) ∧
    Granted mem9000 (reqOf mem9000 sz.bytes false true) .write mem9000 map9000 ∧
    mem9000.cfg.pbhaNeutral = true ∧ mem9000.osLock = true ∧ mem9000.tagFault
      (reqOf mem9000 sz.bytes false true) map9000 = false :=
  ⟨reqOf_ok _ _ _ (by cases sz <;> decide), (reqOf_granted _ _ _).2.1, by decide +kernel,
    by decide +kernel, (reqOf_granted _ _ _).2.2.untagged⟩

theorem witness_ExceptionEntry : ∃ e : Entry, e.target ≠ 0 ∧ e.esr = some 0x2000000 ∧
    e.far = .write 0x9000 ∧ e.hpfar = some 0x90 :=
  ⟨⟨2, .sync, 0x1000, some 0x2000000, .write 0x9000, some 0x90⟩, by decide⟩

theorem witness_VectorTable : s0.el = 1 ∧ s0.pstate.sp = true ∧
    { s0 with pstate := { s0.pstate with sp := false } }.pstate.sp = false ∧ user.el ≠ 1 := by
  decide +kernel

theorem witness_EntryThenReturnRestores : LegalMode s0 ∧ s0.unsynced = [] ∧ s0.el ≤ 1 ∧
    (s0.el = 2 → s0.el2Enabled = true) ∧ (s0.el = 1 → s0.tge = false) ∧ s0.el2Enabled = false ∧
    (match exec .eret (s0.takeSync 1 0 0) with
      | .next u => u.pc == s0.pc
      | _ => false) = true :=
  ⟨⟨by decide +kernel, by decide +kernel⟩, by decide +kernel, by decide +kernel,
    by decide +kernel, by decide +kernel, by decide +kernel, by decide +kernel⟩

/-- A state that fetches a word with PSTATE.IL set. -/
def illegal : State := { placed with pstate := { placed.pstate with il := true } }

theorem illegal_fetches : illegal.tick.fetch =
    .word { illegal.tick.showPbha 0 (illegal.tick.offMapped 0 .fetch) with
      cache := illegal.tick.cache } (illegal.tick.offMapped 0 .fetch) 0xD503207F := by
  have hp : illegal.tick.pc = 0 := by decide +kernel
  have hc : illegal.tick.fetchCaches (illegal.tick.offMapped 0 .fetch) = illegal.tick.cache := by
    decide +kernel
  have hw : illegal.tick.fetchWord (illegal.tick.offMapped 0 .fetch) = 0xD503207F := by
    decide +kernel
  unfold State.fetch
  rw [hp, if_neg (by decide), translate_off (by decide +kernel) (by decide)]
  dsimp only
  rw [show illegal.tick.permissionFault (illegal.tick.offMapped 0 .fetch) .fetch = none by
    decide +kernel]
  dsimp only
  rw [if_neg (by decide +kernel), if_neg (by decide +kernel), if_neg (by decide +kernel), hc, hw]

theorem witness_PcAlignmentAndIllegalState : (RunsNext { s0 with pc := 0x1002 } ∧
      { s0 with pc := 0x1002 }.pc.toNat % 4 ≠ 0) ∧
    RunsNext illegal ∧ illegal.pstate.il = true ∧ ∃ s1 m w, illegal.tick.fetch = .word s1 m w ∧
      s1.breakpointHit = false :=
  ⟨⟨{ noEvent := by decide +kernel, on := by decide +kernel, free := by decide +kernel
      running := by decide +kernel, noHalt := by decide +kernel
      littleEndian := by decide +kernel, noReset := by decide +kernel, awake := by decide +kernel
      noAsync := by decide +kernel, noStep := by decide +kernel }, by decide +kernel⟩,
    { noEvent := by decide +kernel, on := by decide +kernel, free := by decide +kernel
      running := by decide +kernel, noHalt := by decide +kernel
      littleEndian := by decide +kernel, noReset := by decide +kernel, awake := by decide +kernel
      noAsync := by decide +kernel, noStep := by decide +kernel }, by decide +kernel,
    _, _, _, illegal_fetches, by decide +kernel⟩

def poweringDown (err : Bool) (mode : PowerMode) : State :=
  { s0 with
    sleep := ⟨.wfi, true, false, false⟩
    ras := { s0.ras with errIrq := err }
    inbox := [.ppu mode] }

/-- Error reporting with every interrupt enabled, and disabled. -/
def reporting (w : Word) : State := s0.put .erxctlr_el1 w

theorem witness_RasInterruptsAndPowerdown : bit ((reporting 0x10D).ctl .erxctlr_el1) 0 = true ∧
    bit ((reporting 0x10D).ctl .erxctlr_el1) 3 = true ∧
    bit ((reporting 0x10D).ctl .erxctlr_el1) 8 = true ∧
    bit ((reporting 0x10D).ctl .erxctlr_el1) 2 = true ∧
    bit ((reporting 0x10C).ctl .erxctlr_el1) 0 = false ∧ bit 0x40000000#64 30 = true ∧
    ∀ b, (poweringDown b .off).inbox = [.ppu .off] ∧ (poweringDown b .off).power = .on ∧
      (poweringDown b .off).sleep.lowPower = .wfi ∧
      (poweringDown b .off).sleep.wakeMasked = true ∧ (poweringDown b .off).tick.ras.errIrq = b ∧
      (poweringDown b .off).tick.ras.faultIrq = false ∧
      (poweringDown b .off).tick.cache.bad = [] := by
  decide +kernel

/-- An asserted output before a step that keeps the record: an event, and an instruction; and an
error that an eviction has met. -/
theorem witness_RasInterruptsAndPowerdown_stays : KeepsRecord (poweringDown true .off) ∧
    (poweringDown true .off).ras.errIrq = true ∧ (∃ t, step (poweringDown true .off) = .next t) ∧
    { s0 with cache := { Caches.empty with bad := [5], met := [5] } }.cache.met = [5] := by
  refine ⟨⟨?_, fun h => nomatch h⟩, rfl, ?_, rfl⟩
  · rintro e ⟨⟩
    rfl
  · exact ⟨{ (poweringDown true .off).tick with inbox := [] }, by rfl⟩

/-- A powerdown request while a line holds an uncorrected error, with errors reported or not and the
outputs enabled or not. -/
def poweringDownBad (ctlr : Word) : State :=
  { (poweringDown false .off).put .erxctlr_el1 ctlr with cache := { Caches.empty with bad := [0x240] } }

theorem witness_RasInterruptsAndPowerdown_bad (w : Word) (h : w ∈ [5, 1, 4]) :
    (poweringDownBad w).inbox = [.ppu .off] ∧ (poweringDownBad w).power = .on ∧
    (poweringDownBad w).sleep.lowPower = .wfi ∧ (poweringDownBad w).sleep.wakeMasked = true ∧
    (poweringDownBad w).tick.ras.errIrq = false ∧ (poweringDownBad w).tick.ras.faultIrq = false ∧
    (poweringDownBad w).tick.cache.bad ≠ [] ∧ (poweringDownBad w).tick.ctl .erxctlr_el1 = w := by
  simp only [List.mem_cons, List.not_mem_nil, or_false] at h
  rcases h with rfl | rfl | rfl <;> decide +kernel

theorem witness_ResetStartsAtEl3 (s : State) :
    s.coldReset = s.coldReset ∧ s.warmReset = s.warmReset := ⟨rfl, rfl⟩

theorem witness_ColdAndWarmReset : SysReg.dbgbvr0_el1.info.group = .debug ∧
    SysReg.trcprgctlr.info.group = .trace ∧ SysReg.erxstatus_el1.info.group = .ras := by
  decide +kernel

/-- A write inside the block, its last byte, and the bytes just below and just above it. -/
def written (key : Nat) : State :=
  { s0 with monitor := .exclusive 0x240 false, inbox := [.remoteWrite key [1, 2]] }

theorem witness_RemoteWriteOpensMonitor : (written 0x903F).inbox = [.remoteWrite 0x903F [1, 2]] ∧
    0x903F + [1, 2].length ≤ 2 ^ 41 ∧ (written 0x903F).monitorBlock = some 0x240 ∧
    Memory.wf (written 0x903F).mem ∧ 0x903F < 0x240 * 64 + 64 ∧ 0x240 * 64 < 0x903F + 2 ∧
    0x8FFE + 2 ≤ 0x240 * 64 ∧ 0x240 * 64 + 64 ≤ 0x9040 := by decide +kernel

theorem witness_FinalPbhaBits : 0 < 4 ∧ 3 < 4 := by decide

/-- A FIFO with its last free place or a full one, the trace unit on or off, the TRBE on or off. -/
def tracing (n : Nat) (on trbe : Bool) : State :=
  { (s0.put .trcprgctlr (if on then 1 else 0)).put .trblimitr_el1 (if trbe then 1 else 0) with
    trace := { TraceUnit.initial with fifo := List.replicate n (.branch 0 0) }
    inbox := [.traceDrain] }

theorem witness_TraceFifoOverflows : (tracing 0 false false).traceOn = false ∧
    (tracing 0 false false).tracePasses = false ∧
    (tracing 63 true false).traceOn = true ∧ (tracing 63 true false).trace.overflow = false ∧
    (tracing 63 true false).trace.fifo.length < (tracing 63 true false).cfg.traceFifoDepth ∧
    (tracing 64 true false).traceOn = true ∧
    (tracing 64 true false).cfg.traceFifoDepth ≤ (tracing 64 true false).trace.fifo.length ∧
    { TraceUnit.initial with overflow := true }.overflow = true ∧
    ∀ b, (tracing 64 true b).inbox = [.traceDrain] ∧ (tracing 64 true b).power = .on ∧
      (tracing 64 true b).tick.trbeOn = b := by decide +kernel

theorem witness_TranslationChangesOnlyTranslationState : Memory.wf mem9000.mem ∧
    mem9000.translateFor 0x9000 .read false = .ok mem9000 map9000 ∧
    mem9000.translateFor 0x9000 .read true = .ok mem9000 map9000 :=
  ⟨by decide +kernel, (reqOf_granted 8 true false).1.translated, by
    unfold State.translateFor
    rw [if_neg (by decide +kernel), if_pos (by decide +kernel)]
    rfl⟩

theorem placed_step : ∃ t, step placed = .next t := by
  have h : after (step placed) (fun _ => true) = true := by decide +kernel
  unfold after at h
  split at h
  · exact ⟨_, ‹_›⟩
  · cases h

theorem witness_StepKeepsMemoryForm : Memory.wf placed.mem ∧ ∃ t, step placed = .next t :=
  ⟨by decide +kernel, placed_step⟩

theorem witness_StepKeepsFixedBits : FixedBits placed ∧ ∃ t, step placed = .next t :=
  ⟨⟨by decide +kernel, by decide +kernel, by decide +kernel, by decide +kernel, by decide +kernel,
    by decide +kernel, by decide +kernel⟩, placed_step⟩

theorem witness_StepKeepsLegalMode : LegalMode placed ∧ ∃ t, step placed = .next t :=
  ⟨⟨by decide +kernel, by decide +kernel⟩, placed_step⟩

theorem witness_StepKeepsCachesExclusive : ExclusiveCaches placed.cache ∧ ∃ t, step placed = .next t :=
  ⟨⟨List.Pairwise.nil, fun _ h => absurd h List.not_mem_nil,
    fun _ h => absurd h List.not_mem_nil⟩, placed_step⟩

end Sys2Proof.Tests
end

section
/-! Proofs of the statements about memory: the invariants that a whole step carries, the exclusion of
the two data caches among them, and the bits of PBHA. -/

namespace Sys2Proof.Machine

/-! What a step carries -/

theorem State.advance_upholds {Q : Prop} (s : State) : OutUpholds Q s s.advance :=
  s.advanceWith_upholds Upholds.refl

/-- A sleeping core that wakes, enters retention or sleeps on (R303, R305, R573). -/
theorem State.runAsleep_upholds {Q : Prop} (s : State) : OutUpholds Q s s.runAsleep := by
  unfold State.runAsleep
  split
  · refine OutUpholds.trans ?_ (State.advance_upholds _)
    exact Upholds.of_same rfl rfl ⟨rfl, rfl, rfl⟩ rfl rfl
  · split
    · exact OutUpholds.next (s.setPower_upholds _)
    · exact OutUpholds.next (.refl s)

/-- The awake core, provided that the instruction it runs does not clear the error record. -/
theorem State.runAwake_upholds {Q : Prop} (s : State)
    (hq : Q → ∀ s1 m w i, s.fetch = .word s1 m w → decodeWord w = .ok i → ¬ s.clearsRecord i) :
    OutUpholds Q s s.runAwake := by
  unfold State.runAwake
  split
  · exact OutUpholds.next (s.takeAsync_upholds _ _)
  · split
    · exact OutUpholds.next (s.takeSync_upholds s.debugTarget_ne _ _)
    · exact s.runInstruction_upholds hq

/-- The core in each of its power modes, under the same proviso. -/
theorem State.run_upholds {Q : Prop} (s : State)
    (hq : Q → ∀ s1 m w i, s.fetch = .word s1 m w → decodeWord w = .ok i → ¬ s.clearsRecord i) :
    OutUpholds Q s s.run := by
  have stay : OutUpholds Q s (.next s) := OutUpholds.next (.refl s)
  unfold State.run
  cases s.power with
  | off | offEmulated => exact stay
  | debugRecovery => exact OutUpholds.refused
  | warmReset => exact OutUpholds.next (s.resetTo_upholds .warm fun _ => rfl)
  | fullRetention =>
    dsimp only
    split
    · exact s.runAsleep_upholds
    · exact OutUpholds.next (s.setPower_upholds _)
  | on =>
    dsimp only
    split
    · exact stay
    · split
      · exact OutUpholds.refused
      · split
        · exact OutUpholds.next (s.setPower_upholds _)
        · split
          · exact s.runAsleep_upholds
          · split
            · exact OutUpholds.next s.enterDebug_upholds
            · exact s.runAwake_upholds hq

/-- Every step carries the invariants; one that keeps the error record lowers no output of the RAS
unit either (R486). -/
theorem step_upholds (s : State) : OutUpholds (KeepsRecord s) s (step s) := by
  have begins : Upholds (KeepsRecord s) s s.tick := s.tick_begins.upholds
  unfold step State.runOrEvent
  split
  next e rest hi =>
    have taken : Upholds (KeepsRecord s) s.tick { s.tick with inbox := rest } :=
      Upholds.of_same rfl rfl ⟨rfl, rfl, rfl⟩ rfl rfl
    exact OutUpholds.trans (begins.trans taken)
      (handleEvent_upholds e _ fun keeps => keeps.event e (by simp [hi]))
  next hi =>
    refine OutUpholds.trans begins (s.tick.run_upholds fun keeps s1 m w i hf hd => ?_)
    unfold State.clearsRecord
    rw [State.tick_cfg]
    exact keeps.instr hi s1 m w i hf hd

/-- Settles O59: the caches are among what every step carries. -/
theorem stepKeepsCachesExclusive : Obligations.StepKeepsCachesExclusive :=
  fun s t hc h => (step_upholds s t h).caches hc

/-! PBHA -/

/-- Settles O53, by cases on whether each stage enables the bit. -/
theorem finalPbhaBits : Obligations.FinalPbhaBits := by
  intro s1 s1En s2 s2En i hi
  have bitwise : (finalPbha s1 s1En s2 s2En).getLsbD i =
      ((s2.getLsbD i && s2En.getLsbD i) ||
        ((s1.getLsbD i && s1En.getLsbD i) && !s2En.getLsbD i)) := by
    simp [finalPbha, hi]
  rw [bitwise]
  cases s2En.getLsbD i with
  | true => simp
  | false => cases s1En.getLsbD i <;> simp

end Sys2Proof.Machine
end

section
/-! Proof of the statement about the dispatch block: what a snoop leaves unchanged, and the core that
the dispatch-block pin holds. -/

namespace Sys2Proof.Machine

/-! Snoops -/

/-- Serving a request changes only what keeps the core asleep (R306, R574). -/
theorem State.serve_eq (s : State) :
    s.serve = { s with sleep := s.serve.sleep, power := s.serve.power } := by
  unfold State.serve
  split <;> rfl

/-- Losing blocks changes only the monitor and the event register (R307, R376). -/
theorem State.loseBlocks_eq (s : State) (taken : Nat → Bool) :
    s.loseBlocks taken = { s with
      monitor := (s.loseBlocks taken).monitor, eventReg := (s.loseBlocks taken).eventReg } := by
  unfold State.loseBlocks
  split
  · split <;> rfl
  · rfl

/-- What a snoop may change: the clocks of a sleeping core, the caches with the poison of what they
hand over, and the monitor with its event (R200, R306, R376). -/
theorem State.snoop_eq (s : State) (b : Nat) (inv : Bool) :
    s.snoop b inv = { s with
      sleep := (s.snoop b inv).sleep, power := (s.snoop b inv).power
      poison := (s.snoop b inv).poison, cache := (s.snoop b inv).cache
      monitor := (s.snoop b inv).monitor, eventReg := (s.snoop b inv).eventReg } := by
  cases inv <;> unfold State.snoop
  · rw [s.serve_eq]; rfl
  · dsimp only
    rw [if_pos rfl, State.loseBlocks_eq, s.serve_eq]

@[simp] theorem State.snoop_x (s : State) (b : Nat) (inv : Bool) :
    (s.snoop b inv).x = s.x := by rw [State.snoop_eq]
@[simp] theorem State.snoop_pc (s : State) (b : Nat) (inv : Bool) :
    (s.snoop b inv).pc = s.pc := by rw [State.snoop_eq]
@[simp] theorem State.snoop_mem (s : State) (b : Nat) (inv : Bool) :
    (s.snoop b inv).mem = s.mem := by rw [State.snoop_eq]
@[simp] theorem State.snoop_gic (s : State) (b : Nat) (inv : Bool) :
    (s.snoop b inv).gic = s.gic := by rw [State.snoop_eq]
@[simp] theorem State.snoop_irq (s : State) (b : Nat) (inv : Bool) :
    (s.snoop b inv).irq = s.irq := by rw [State.snoop_eq]
@[simp] theorem State.snoop_throttle (s : State) (b : Nat) (inv : Bool) :
    (s.snoop b inv).throttle = s.throttle := by rw [State.snoop_eq]

/-- An invalidating snoop leaves the block in neither data cache (R200). -/
theorem State.snoop_gone (s : State) (b : Nat) :
    holdsBlock (s.snoop b true).cache.l1d b = false ∧
      holdsBlock (s.snoop b true).cache.l2 b = false := by
  unfold State.snoop
  dsimp only
  rw [if_pos rfl, State.loseBlocks_eq]
  exact ⟨holdsBlock_dropBlock _ _, holdsBlock_dropBlock _ _⟩

/-! The dispatch block (R587) -/

/-- In the On mode the dispatch block lets the core do nothing. -/
theorem State.run_of_dispatchBlock {s : State} (hp : s.power = .on)
    (hb : s.throttle.dispatchBlock = true) : s.run = .next s := by
  simp [State.run, hp, hb]

/-- A step with no event is the core's, after the counters. -/
theorem step_of_no_event {s : State} (h : s.inbox = []) : step s = s.tick.run := by
  simp [step, State.runOrEvent, h]

/-- A step with an event is the event's, after the counters. -/
theorem step_of_event {s : State} {e : EnvEvent} {rest : List EnvEvent} (h : s.inbox = e :: rest) :
    step s = handleEvent e { s.tick with inbox := rest } := by
  simp [step, State.runOrEvent, h]

/-- Settles O8: without an event the held core leaves the step at `tick`, and a snoop is handled
whatever the pin is. That a WFI or WFE dispatched before the pin is held too is the model's choice
(log entry 38). -/
theorem dispatchBlockHoldsCore : Obligations.DispatchBlockHoldsCore := by
  intro s hb hp
  constructor
  · intro hi
    have held : s.tick.run = .next s.tick := State.run_of_dispatchBlock (by simp [hp]) (by simp [hb])
    refine ⟨(step_of_no_event hi).trans held, s.tick_pc, s.tick_x, s.tick_mem, s.tick_gic,
      ?_, ?_, ?_, ?_, s.tick_serror⟩ <;> rw [s.tick_irq]
  · intro b inv rest hi
    refine ⟨_, step_of_event hi, ?_⟩
    simp only [State.snoop_pc, State.snoop_x, State.snoop_irq, State.snoop_gic,
      State.snoop_mem, State.snoop_throttle, State.tick_pc, State.tick_x, State.tick_gic,
      State.tick_mem, State.tick_throttle, hb, true_and]
    rintro rfl
    exact State.snoop_gone _ b

end Sys2Proof.Machine
end

section
/-! Proofs of the statements about the invariants of a step: what `step_upholds` says of memory, the
fixed bits and the mode, and the state after reset. -/

namespace Sys2Proof.Machine

/-- Settles O56: the form of memory is among what every step carries. -/
theorem stepKeepsMemoryForm : Obligations.StepKeepsMemoryForm :=
  fun s t hm h => (step_upholds s t h).memory hm

/-- Settles O57: the fixed bits are among what every step carries. -/
theorem stepKeepsFixedBits : Obligations.StepKeepsFixedBits :=
  fun s t hf h => (step_upholds s t h).fixed hf

/-- Settles O58: a legal mode is among what every step carries. -/
theorem stepKeepsLegalMode : Obligations.StepKeepsLegalMode :=
  fun s t hl h => (step_upholds s t h).mode hl

/-- Setting registers one after another in a vector, each at most once: the value of a register is
the one listed for it, else what it was. -/
theorem getElem_foldl_set (l : List (SysReg × Word)) (r : SysReg) :
    ∀ v : Vector Word numSysRegs, (l.map (·.1)).Nodup →
      (l.foldl (fun v p => v.set p.1.idx p.2) v)[r.idx] =
        match l.find? (fun p => p.1 == r) with
        | some p => p.2
        | none => v[r.idx] := by
  induction l with
  | nil => intro v _; rfl
  | cons p l ih =>
    intro v h
    simp only [List.map_cons, List.nodup_cons] at h
    rw [List.foldl_cons, ih _ h.2, List.find?_cons]
    by_cases hp : p.1 = r
    · subst hp
      have hn : l.find? (fun x => x.1 == p.1) = none := by
        rw [List.find?_eq_none]
        intro x hx
        simp only [beq_iff_eq]
        exact fun e => h.1 (List.mem_map.2 ⟨x, hx, e⟩)
      simp [hn]
    · have hi : p.1.idx.val ≠ r.idx.val := fun e => hp (SysReg.idx_inj (Fin.ext e))
      rw [beq_false_of_ne hp]
      cases l.find? (fun x => x.1 == r) with
      | none => exact Vector.getElem_set_ne _ _ hi
      | some _ => rfl

/-- A system register of a machine right after a Cold reset: the value listed for it, else 0. -/
theorem State.resetWith_get (cfg : Config) (r : SysReg) : (State.resetWith cfg).get r =
    match (resetValues cfg).find? (fun p => p.1 == r) with
    | some p => p.2
    | none => 0 := by
  have h := getElem_foldl_set (resetValues cfg) r (Vector.replicate numSysRegs 0)
    (show ((resetValues cfg).map (·.1)).Nodup by simp [resetValues])
  rw [show (Vector.replicate numSysRegs (0 : Word))[r.idx] = 0 from Vector.getElem_replicate _] at h
  exact h

/-- Settles O60: no cell, no line, and the fixed bits as `resetValues` lists them. -/
theorem resetMeetsInvariants : Obligations.ResetMeetsInvariants := by
  intro cfg
  refine ⟨⟨List.Pairwise.nil, by simp [State.resetWith]⟩, ?_,
    ⟨rfl, by simp [State.resetWith, resetPState]⟩, ExclusiveCaches.of_nil rfl rfl⟩
  constructor <;> simp [State.resetWith_get, resetValues, bit]

end Sys2Proof.Machine
end

section
/-! Proofs of the statements about encoding. A row of the table writes its operands where its mask
is 0 and keeps its value elsewhere, and reads them back from there; of two rows that select one word
the first is a special form of the second, whose instruction is then not well-formed (R261, R273,
R278). -/

namespace Sys2Proof

/-! The operand fields of each format -/

/-- Words are equal when they agree bit by bit. -/
theorem Ins.ext_bits {v w : Ins} (h : ∀ i < 32, v.getLsbD i = w.getLsbD i) : v = w :=
  BitVec.eq_of_getLsbD_eq h

/-- A row writes the operands it reads from a word into the bits that its mask leaves open. -/
def Row.Fills (r : Row) : Prop := ∀ w, encode (r.build w) = r.val ||| (w &&& ~~~r.mask)

/-- An instruction without operands. -/
theorem fills_bFixed {c : Instr} {v : Ins} (hc : encode c = v) :
    Row.Fills ⟨0xFFFFFFFF, v, bFixed c⟩ := by
  intro w
  change encode c = _
  simp [hc]

/-- Barriers, with their `CRm`. -/
theorem fills_bCrm {c : BitVec 4 → Instr} {hi : BitVec 20} {lo : BitVec 8} {v : Ins}
    (hc : ∀ m, encode (c m) = hi ++ m ++ lo) (hv : v = hi ++ 0#4 ++ lo) :
    Row.Fills ⟨0xFFFFF0FF, v, bCrm c⟩ := by
  intro w
  change encode (c (w.extractLsb' 8 4)) = v ||| (w &&& ~~~0xFFFFF0FF#32)
  rw [hc, hv]
  refine Ins.ext_bits fun i hi => ?_
  simp only [BitVec.getLsbD_append, BitVec.getLsbD_or, BitVec.getLsbD_and]
  interval_cases i <;> simp

/-- System operations of one register. -/
theorem fills_bRt {c : Reg → Instr} {hi : BitVec 27} {v : Ins}
    (hc : ∀ rt, encode (c rt) = hi ++ rt) (hv : v = hi ++ 0#5) :
    Row.Fills ⟨0xFFFFFFE0, v, bRt c⟩ := by
  intro w
  change encode (c (fRt w)) = v ||| (w &&& ~~~0xFFFFFFE0#32)
  rw [hc, hv]
  refine Ins.ext_bits fun i hi => ?_
  simp only [fRt, BitVec.getLsbD_append, BitVec.getLsbD_or, BitVec.getLsbD_and]
  interval_cases i <;> simp

/-- `SYS` in general. -/
theorem fills_sys : Row.Fills ⟨0xFFF80000, 0xD5080000, bSys .sys⟩ := by
  intro w
  refine Ins.ext_bits fun i hi => ?_
  simp only [show encode (bSys .sys w) = 0b1101010100001#13 ++ w.extractLsb' 16 3 ++
      w.extractLsb' 12 4 ++ w.extractLsb' 8 4 ++ w.extractLsb' 5 3 ++ fRt w from rfl,
    fRt, BitVec.getLsbD_append, BitVec.getLsbD_or, BitVec.getLsbD_and]
  interval_cases i <;> simp

/-- A system register move, from its fields. -/
theorem encReg_fields (hi : BitVec 12) (w : Ins) :
    encReg hi (fEnc w) (fRt w) = (hi ++ 0#20) ||| (w &&& ~~~0xFFF00000#32) := by
  refine Ins.ext_bits fun i hi => ?_
  simp only [encReg, fEnc, fRt, BitVec.getLsbD_append, BitVec.getLsbD_or, BitVec.getLsbD_and]
  interval_cases i <;> simp

/-- `BL`, with its offset. -/
theorem fills_bl : Row.Fills ⟨0xFC000000, 0x94000000, bImm26 .bl⟩ := by
  intro w
  refine Ins.ext_bits fun i hi => ?_
  simp only [show encode (bImm26 .bl w) = 0b100101#6 ++ w.extractLsb' 0 26 from rfl,
    BitVec.getLsbD_append, BitVec.getLsbD_or, BitVec.getLsbD_and]
  interval_cases i <;> simp

/-- Two registers after 22 fixed bits, from their fields. -/
theorem encTwo_fields (hi : BitVec 22) (w : Ins) :
    encTwo hi (fRn w) (fRt w) = encTwo hi 0 0 ||| (w &&& ~~~0xFFFFFC00#32) := by
  refine Ins.ext_bits fun i hi => ?_
  simp only [encTwo, fRn, fRt, BitVec.getLsbD_append, BitVec.getLsbD_or, BitVec.getLsbD_and]
  interval_cases i <;> simp

/-- One register between fixed bits, from its field. -/
theorem encTwo_field (hi : BitVec 22) (lo : Reg) (w : Ins) :
    encTwo hi (fRn w) lo = encTwo hi 0 lo ||| (w &&& ~~~0xFFFFFC1F#32) := by
  refine Ins.ext_bits fun i hi => ?_
  simp only [encTwo, fRn, BitVec.getLsbD_append, BitVec.getLsbD_or, BitVec.getLsbD_and]
  interval_cases i <;> simp

/-- Three registers among fixed bits, from their fields. -/
theorem encThree_fields (hi : BitVec 11) (mid : BitVec 6) (w : Ins) :
    encThree hi (fRs w) mid (fRn w) (fRt w) =
      encThree hi 0 mid 0 0 ||| (w &&& ~~~0xFFE0FC00#32) := by
  refine Ins.ext_bits fun i hi => ?_
  simp only [encThree, fRs, fRn, fRt, BitVec.getLsbD_append, BitVec.getLsbD_or, BitVec.getLsbD_and]
  interval_cases i <;> simp

/-- A store form: two registers among fixed bits and 31 as the third, from their fields. -/
theorem encThree_fields31 (hi : BitVec 11) (mid : BitVec 6) (w : Ins) :
    encThree hi (fRs w) mid (fRn w) 31 =
      encThree hi 0 mid 0 31 ||| (w &&& ~~~0xFFE0FC1F#32) := by
  refine Ins.ext_bits fun i hi => ?_
  simp only [encThree, fRs, fRn, BitVec.getLsbD_append, BitVec.getLsbD_or, BitVec.getLsbD_and]
  interval_cases i <;> simp

/-- The Load-Exclusive pairs, from their fields. -/
theorem loadPair_fields (hi : BitVec 17) (w : Ins) :
    (hi ++ fRt2 w ++ fRn w ++ fRt w : Ins) = (hi ++ 0#15) ||| (w &&& ~~~0xFFFF8000#32) := by
  refine Ins.ext_bits fun i hi => ?_
  simp only [fRt2, fRn, fRt, BitVec.getLsbD_append, BitVec.getLsbD_or, BitVec.getLsbD_and]
  interval_cases i <;> simp

/-- The Store-Exclusive pairs, from their fields. -/
theorem storePair_fields (hi : BitVec 11) (o : BitVec 1) (w : Ins) :
    (hi ++ fRs w ++ o ++ fRt2 w ++ fRn w ++ fRt w : Ins) =
      (hi ++ 0#5 ++ o ++ 0#15) ||| (w &&& ~~~0xFFE08000#32) := by
  refine Ins.ext_bits fun i hi => ?_
  simp only [fRs, fRt2, fRn, fRt, BitVec.getLsbD_append, BitVec.getLsbD_or, BitVec.getLsbD_and]
  interval_cases i <;> simp

theorem fills_mrs : Row.Fills ⟨0xFFF00000, 0xD5300000, bMrs .mrs⟩ :=
  encReg_fields 0b110101010011

theorem fills_msr : Row.Fills ⟨0xFFF00000, 0xD5100000, bMsr .msr⟩ :=
  encReg_fields 0b110101010001

/-! The rows, by the format of their instructions -/

theorem fills_bRn {c : Reg → Instr} {hi : BitVec 22} {lo : Reg} {v : Ins}
    (hc : ∀ rn, encode (c rn) = encTwo hi rn lo) (hv : v = encTwo hi 0 lo) :
    Row.Fills ⟨0xFFFFFC1F, v, bRn c⟩ := by
  subst hv
  exact fun w => (hc _).trans (encTwo_field hi lo w)

theorem fills_bRnRm {c : Reg → Reg → Instr} {hi : BitVec 22} {v : Ins}
    (hc : ∀ rn rm, encode (c rn rm) = encTwo hi rn rm) (hv : v = encTwo hi 0 0) :
    Row.Fills ⟨0xFFFFFC00, v, bRnRm c⟩ := by
  subst hv
  exact fun w => (hc _ _).trans (encTwo_fields hi w)

theorem fills_bRtRn {c : Reg → Reg → Instr} {hi : BitVec 22} {v : Ins}
    (hc : ∀ rt rn, encode (c rt rn) = encTwo hi rn rt) (hv : v = encTwo hi 0 0) :
    Row.Fills ⟨0xFFFFFC00, v, bRtRn c⟩ := by
  subst hv
  exact fun w => (hc _ _).trans (encTwo_fields hi w)

theorem fills_bRtRt2Rn {c : Reg → Reg → Reg → Instr} {hi : BitVec 17} {v : Ins}
    (hc : ∀ rt rt2 rn, encode (c rt rt2 rn) = hi ++ rt2 ++ rn ++ rt) (hv : v = hi ++ 0#15) :
    Row.Fills ⟨0xFFFF8000, v, bRtRt2Rn c⟩ := by
  subst hv
  exact fun w => (hc _ _ _).trans (loadPair_fields hi w)

theorem fills_bRsRtRn {c : Reg → Reg → Reg → Instr} {hi : BitVec 11} {mid : BitVec 6} {v : Ins}
    (hc : ∀ rs rt rn, encode (c rs rt rn) = encThree hi rs mid rn rt)
    (hv : v = encThree hi 0 mid 0 0) : Row.Fills ⟨0xFFE0FC00, v, bRsRtRn c⟩ := by
  subst hv
  exact fun w => (hc _ _ _).trans (encThree_fields hi mid w)

theorem fills_bRsRn {c : Reg → Reg → Instr} {hi : BitVec 11} {mid : BitVec 6} {v : Ins}
    (hc : ∀ rs rn, encode (c rs rn) = encThree hi rs mid rn 31)
    (hv : v = encThree hi 0 mid 0 31) : Row.Fills ⟨0xFFE0FC1F, v, bRsRn c⟩ := by
  subst hv
  exact fun w => (hc _ _).trans (encThree_fields31 hi mid w)

theorem fills_bRsRtRt2Rn {c : Reg → Reg → Reg → Reg → Instr} {hi : BitVec 11} {o : BitVec 1}
    {v : Ins} (hc : ∀ rs rt rt2 rn, encode (c rs rt rt2 rn) = hi ++ rs ++ o ++ rt2 ++ rn ++ rt)
    (hv : v = hi ++ 0#5 ++ o ++ 0#15) : Row.Fills ⟨0xFFE08000, v, bRsRtRt2Rn c⟩ := by
  subst hv
  exact fun w => (hc _ _ _ _).trans (storePair_fields hi o w)

theorem fills_prfmImm : Row.Fills ⟨0xFFC00000, 0xF9800000, bPrfmImm .prfmImm⟩ := by
  intro w
  refine Ins.ext_bits fun i hi => ?_
  simp only [show encode (bPrfmImm .prfmImm w) =
      0b1111100110#10 ++ w.extractLsb' 10 12 ++ fRn w ++ fRt w from rfl,
    fRn, fRt, BitVec.getLsbD_append, BitVec.getLsbD_or, BitVec.getLsbD_and]
  interval_cases i <;> simp

theorem fills_prfum : Row.Fills ⟨0xFFE00C00, 0xF8800000, bPrfum .prfum⟩ := by
  intro w
  refine Ins.ext_bits fun i hi => ?_
  simp only [show encode (bPrfum .prfum w) =
      0b11111000100#11 ++ w.extractLsb' 12 9 ++ 0b00#2 ++ fRn w ++ fRt w from rfl,
    fRn, fRt, BitVec.getLsbD_append, BitVec.getLsbD_or, BitVec.getLsbD_and]
  interval_cases i <;> simp

theorem fills_prfmReg : Row.Fills ⟨0xFFE00C00, 0xF8A00800, bPrfmReg .prfmReg⟩ := by
  intro w
  refine Ins.ext_bits fun i hi => ?_
  simp only [show encode (bPrfmReg .prfmReg w) = 0b11111000101#11 ++ fRs w ++
      w.extractLsb' 13 3 ++ w.extractLsb' 12 1 ++ 0b10#2 ++ fRn w ++ fRt w from rfl,
    fRs, fRn, fRt, BitVec.getLsbD_append, BitVec.getLsbD_or, BitVec.getLsbD_and]
  interval_cases i <;> simp

theorem fills_prfmLit : Row.Fills ⟨0xFF000000, 0xD8000000, bPrfmLit .prfmLit⟩ := by
  intro w
  refine Ins.ext_bits fun i hi => ?_
  simp only [show encode (bPrfmLit .prfmLit w) =
      0b11011000#8 ++ w.extractLsb' 5 19 ++ fRt w from rfl,
    fRt, BitVec.getLsbD_append, BitVec.getLsbD_or, BitVec.getLsbD_and]
  interval_cases i <;> simp

/-! The table, part by part -/

theorem rows0_fill : ∀ r ∈ rows0, r.Fills := by
  unfold rows0
  iterate 3 refine List.forall_mem_cons.2 ⟨fills_bFixed rfl, ?_⟩
  iterate 2 refine List.forall_mem_cons.2 ⟨fills_bCrm (fun _ => rfl) rfl, ?_⟩
  iterate 4 refine List.forall_mem_cons.2 ⟨fills_bRt (fun _ => rfl) rfl, ?_⟩
  refine List.forall_mem_cons.2 ⟨fills_sys, List.forall_mem_cons.2 ⟨fills_mrs,
    List.forall_mem_cons.2 ⟨fills_msr, List.forall_mem_cons.2 ⟨fills_bl, ?_⟩⟩⟩⟩
  iterate 3 refine List.forall_mem_cons.2 ⟨fills_bRn (fun _ => rfl) rfl, ?_⟩
  iterate 2 refine List.forall_mem_cons.2 ⟨fills_bRnRm (fun _ _ => rfl) rfl, ?_⟩
  refine List.forall_mem_cons.2 ⟨fills_bRn (fun _ => rfl) rfl, ?_⟩
  iterate 5 refine List.forall_mem_cons.2 ⟨fills_bFixed rfl, ?_⟩
  exact List.forall_mem_nil _

theorem rows1_fill : ∀ r ∈ rows1, r.Fills := by
  unfold rows1
  iterate 2
    iterate 4 refine List.forall_mem_cons.2 ⟨fills_bRtRn (fun _ _ => rfl) rfl, ?_⟩
    iterate 2 refine List.forall_mem_cons.2 ⟨fills_bRtRt2Rn (fun _ _ _ => rfl) rfl, ?_⟩
  iterate 2
    iterate 4 refine List.forall_mem_cons.2 ⟨fills_bRsRtRn (fun _ _ _ => rfl) rfl, ?_⟩
    iterate 2 refine List.forall_mem_cons.2 ⟨fills_bRsRtRt2Rn (fun _ _ _ _ => rfl) rfl, ?_⟩
  exact List.forall_mem_nil _

theorem rows2_fill : ∀ r ∈ rows2, r.Fills := by
  unfold rows2
  repeat refine List.forall_mem_cons.2 ⟨fills_bRsRtRn (fun _ _ _ => rfl) rfl, ?_⟩
  exact List.forall_mem_nil _

/-- The rows of the store forms, and the first of the loads. -/
theorem storeRows_fill : ∀ r ∈ rows3 ++ rows4 ++ rows5, r.Fills := by
  unfold rows3 rows4 rows5
  iterate 64 refine List.forall_mem_cons.2 ⟨fills_bRsRn (fun _ _ => rfl) rfl, ?_⟩
  repeat refine List.forall_mem_cons.2 ⟨fills_bRsRtRn (fun _ _ _ => rfl) rfl, ?_⟩
  exact List.forall_mem_nil _

/-- The other rows of the loads. -/
theorem loadRows_fill : ∀ r ∈ rows6 ++ rows7 ++ rows8 ++ rows9 ++ rows10, r.Fills := by
  unfold rows6 rows7 rows8 rows9 rows10
  repeat refine List.forall_mem_cons.2 ⟨fills_bRsRtRn (fun _ _ _ => rfl) rfl, ?_⟩
  exact List.forall_mem_nil _

theorem rows11_fill : ∀ r ∈ rows11, r.Fills := by
  unfold rows11
  iterate 16 refine List.forall_mem_cons.2 ⟨fills_bRsRtRn (fun _ _ _ => rfl) rfl, ?_⟩
  exact List.forall_mem_cons.2 ⟨fills_prfmImm, List.forall_mem_cons.2 ⟨fills_prfum,
    List.forall_mem_cons.2 ⟨fills_prfmReg, List.forall_mem_cons.2 ⟨fills_prfmLit,
    List.forall_mem_nil _⟩⟩⟩⟩

theorem rows_fill : ∀ r ∈ rows, r.Fills := by
  intro r hr
  have parts : r ∈ rows0 ∨ r ∈ rows1 ∨ r ∈ rows2 ∨ r ∈ rows3 ++ rows4 ++ rows5 ∨
      r ∈ rows6 ++ rows7 ++ rows8 ++ rows9 ++ rows10 ∨ r ∈ rows11 := by
    simpa only [rows, List.mem_append, or_assoc] using hr
  obtain h | h | h | h | h | h := parts
  · exact rows0_fill r h
  · exact rows1_fill r h
  · exact rows2_fill r h
  · exact storeRows_fill r h
  · exact loadRows_fill r h
  · exact rows11_fill r h

/-! Reading the operands back -/

@[simp] theorem fRn_encTwo (hi : BitVec 22) (rn low : Reg) :
    fRn (encTwo hi rn low) = rn := by
  refine BitVec.eq_of_getLsbD_eq fun i hi => ?_
  simp only [encTwo, fRn, BitVec.getLsbD_extractLsb', BitVec.getLsbD_append]
  interval_cases i <;> simp

@[simp] theorem fRt_encTwo (hi : BitVec 22) (rn low : Reg) :
    fRt (encTwo hi rn low) = low := by
  refine BitVec.eq_of_getLsbD_eq fun i hi => ?_
  simp only [encTwo, fRt, BitVec.getLsbD_extractLsb', BitVec.getLsbD_append]
  interval_cases i <;> simp

@[simp] theorem fRs_encThree (hi : BitVec 11) (mid : BitVec 6) (rs rn rt : Reg) :
    fRs (encThree hi rs mid rn rt) = rs := by
  refine BitVec.eq_of_getLsbD_eq fun i hi => ?_
  simp only [encThree, fRs, BitVec.getLsbD_extractLsb', BitVec.getLsbD_append]
  interval_cases i <;> simp

@[simp] theorem fRn_encThree (hi : BitVec 11) (mid : BitVec 6) (rs rn rt : Reg) :
    fRn (encThree hi rs mid rn rt) = rn := by
  refine BitVec.eq_of_getLsbD_eq fun i hi => ?_
  simp only [encThree, fRn, BitVec.getLsbD_extractLsb', BitVec.getLsbD_append]
  interval_cases i <;> simp

@[simp] theorem fRt_encThree (hi : BitVec 11) (mid : BitVec 6) (rs rn rt : Reg) :
    fRt (encThree hi rs mid rn rt) = rt := by
  refine BitVec.eq_of_getLsbD_eq fun i hi => ?_
  simp only [encThree, fRt, BitVec.getLsbD_extractLsb', BitVec.getLsbD_append]
  interval_cases i <;> simp

theorem fRt_encReg (hi : BitVec 12) (e : SysEnc) (rt : Reg) :
    fRt (encReg hi e rt) = rt := by
  refine BitVec.eq_of_getLsbD_eq fun i hi => ?_
  simp only [encReg, fRt, BitVec.getLsbD_extractLsb', BitVec.getLsbD_append]
  interval_cases i <;> simp

theorem fEnc_encReg (hi : BitVec 12) (e : SysEnc) (rt : Reg) : fEnc (encReg hi e rt) = e := by
  obtain ⟨o0, op1, crn, crm, op2⟩ := e
  simp only [fEnc, SysEnc.mk.injEq]
  refine ⟨?_, ?_, ?_, ?_, ?_⟩ <;> refine BitVec.eq_of_getLsbD_eq fun i hi => ?_ <;>
    simp only [encReg, BitVec.getLsbD_extractLsb', BitVec.getLsbD_append] <;>
    interval_cases i <;> simp

theorem crm_append (hi : BitVec 20) (m : BitVec 4) (lo : BitVec 8) :
    (hi ++ m ++ lo : Ins).extractLsb' 8 4 = m := by
  refine BitVec.eq_of_getLsbD_eq fun i hi => ?_
  simp only [BitVec.getLsbD_extractLsb', BitVec.getLsbD_append]
  interval_cases i <;> simp

theorem fRt_append (hi : BitVec 27) (rt : Reg) :
    fRt (hi ++ rt) = rt := by
  refine BitVec.eq_of_getLsbD_eq fun i hi => ?_
  simp only [fRt, BitVec.getLsbD_extractLsb', BitVec.getLsbD_append]
  interval_cases i <;> simp

theorem fRt_loadPair (hi : BitVec 17) (rt2 rn rt : Reg) :
    fRt (hi ++ rt2 ++ rn ++ rt) = rt := by
  refine BitVec.eq_of_getLsbD_eq fun i hi => ?_
  simp only [fRt, BitVec.getLsbD_extractLsb', BitVec.getLsbD_append]
  interval_cases i <;> simp

theorem fRn_loadPair (hi : BitVec 17) (rt2 rn rt : Reg) :
    fRn (hi ++ rt2 ++ rn ++ rt) = rn := by
  refine BitVec.eq_of_getLsbD_eq fun i hi => ?_
  simp only [fRn, BitVec.getLsbD_extractLsb', BitVec.getLsbD_append]
  interval_cases i <;> simp

theorem fRt2_loadPair (hi : BitVec 17) (rt2 rn rt : Reg) :
    fRt2 (hi ++ rt2 ++ rn ++ rt) = rt2 := by
  refine BitVec.eq_of_getLsbD_eq fun i hi => ?_
  simp only [fRt2, BitVec.getLsbD_extractLsb', BitVec.getLsbD_append]
  interval_cases i <;> simp

theorem fRt_storePair (hi : BitVec 11) (o : BitVec 1) (rs rt2 rn rt : Reg) :
    fRt (hi ++ rs ++ o ++ rt2 ++ rn ++ rt) = rt := by
  refine BitVec.eq_of_getLsbD_eq fun i hi => ?_
  simp only [fRt, BitVec.getLsbD_extractLsb', BitVec.getLsbD_append]
  interval_cases i <;> simp

theorem fRn_storePair (hi : BitVec 11) (o : BitVec 1) (rs rt2 rn rt : Reg) :
    fRn (hi ++ rs ++ o ++ rt2 ++ rn ++ rt) = rn := by
  refine BitVec.eq_of_getLsbD_eq fun i hi => ?_
  simp only [fRn, BitVec.getLsbD_extractLsb', BitVec.getLsbD_append]
  interval_cases i <;> simp

theorem fRt2_storePair (hi : BitVec 11) (o : BitVec 1) (rs rt2 rn rt : Reg) :
    fRt2 (hi ++ rs ++ o ++ rt2 ++ rn ++ rt) = rt2 := by
  refine BitVec.eq_of_getLsbD_eq fun i hi => ?_
  simp only [fRt2, BitVec.getLsbD_extractLsb', BitVec.getLsbD_append]
  interval_cases i <;> simp

theorem fRs_storePair (hi : BitVec 11) (o : BitVec 1) (rs rt2 rn rt : Reg) :
    fRs (hi ++ rs ++ o ++ rt2 ++ rn ++ rt) = rs := by
  refine BitVec.eq_of_getLsbD_eq fun i hi => ?_
  simp only [fRs, BitVec.getLsbD_extractLsb', BitVec.getLsbD_append]
  interval_cases i <;> simp

/-- A row builds an instruction from the word of that instruction. -/
def Row.Reads (r : Row) (i : Instr) : Prop := r.build (encode i) = i

section
variable {m v : Ins}

theorem reads_bFixed {c : Instr} : Row.Reads ⟨m, v, bFixed c⟩ c := rfl

theorem reads_bCrm {c : BitVec 4 → Instr} {hi : BitVec 20} {lo : BitVec 8} {x : BitVec 4}
    (hc : encode (c x) = hi ++ x ++ lo) : Row.Reads ⟨m, v, bCrm c⟩ (c x) :=
  congrArg c ((congrArg _ hc).trans (crm_append hi x lo))

theorem reads_bRt {c : Reg → Instr} {hi : BitVec 27} {rt : Reg}
    (hc : encode (c rt) = hi ++ rt) : Row.Reads ⟨m, v, bRt c⟩ (c rt) :=
  congrArg c ((congrArg fRt hc).trans (fRt_append hi rt))

theorem reads_bRn {c : Reg → Instr} {hi : BitVec 22} {rn lo : Reg}
    (hc : encode (c rn) = encTwo hi rn lo) : Row.Reads ⟨m, v, bRn c⟩ (c rn) :=
  congrArg c ((congrArg fRn hc).trans (fRn_encTwo hi rn lo))

theorem reads_bRnRm {c : Reg → Reg → Instr} {hi : BitVec 22} {rn rm : Reg}
    (hc : encode (c rn rm) = encTwo hi rn rm) : Row.Reads ⟨m, v, bRnRm c⟩ (c rn rm) := by
  simp [Row.Reads, bRnRm, hc]

theorem reads_bRtRn {c : Reg → Reg → Instr} {hi : BitVec 22} {rt rn : Reg}
    (hc : encode (c rt rn) = encTwo hi rn rt) : Row.Reads ⟨m, v, bRtRn c⟩ (c rt rn) := by
  simp [Row.Reads, bRtRn, hc]

theorem reads_bRsRn {c : Reg → Reg → Instr} {hi : BitVec 11} {mid : BitVec 6} {rs rn rt : Reg}
    (hc : encode (c rs rn) = encThree hi rs mid rn rt) :
    Row.Reads ⟨m, v, bRsRn c⟩ (c rs rn) := by
  simp [Row.Reads, bRsRn, hc]

theorem reads_bRsRtRn {c : Reg → Reg → Reg → Instr} {hi : BitVec 11} {mid : BitVec 6}
    {rs rt rn : Reg} (hc : encode (c rs rt rn) = encThree hi rs mid rn rt) :
    Row.Reads ⟨m, v, bRsRtRn c⟩ (c rs rt rn) := by
  simp [Row.Reads, bRsRtRn, hc]

theorem reads_bRtRt2Rn {c : Reg → Reg → Reg → Instr} {hi : BitVec 17} {rt rt2 rn : Reg}
    (hc : encode (c rt rt2 rn) = hi ++ rt2 ++ rn ++ rt) :
    Row.Reads ⟨m, v, bRtRt2Rn c⟩ (c rt rt2 rn) := by
  simp only [Row.Reads, bRtRt2Rn, hc, fRt_loadPair, fRn_loadPair, fRt2_loadPair]

theorem reads_bRsRtRt2Rn {c : Reg → Reg → Reg → Reg → Instr} {hi : BitVec 11} {o : BitVec 1}
    {rs rt rt2 rn : Reg} (hc : encode (c rs rt rt2 rn) = hi ++ rs ++ o ++ rt2 ++ rn ++ rt) :
    Row.Reads ⟨m, v, bRsRtRt2Rn c⟩ (c rs rt rt2 rn) := by
  simp only [Row.Reads, bRsRtRt2Rn, hc, fRt_storePair, fRn_storePair, fRt2_storePair,
    fRs_storePair]

theorem reads_mrs (rt : Reg) (e : SysEnc) : Row.Reads ⟨m, v, bMrs .mrs⟩ (.mrs rt e) :=
  congrArg₂ Instr.mrs (fRt_encReg _ e rt) (fEnc_encReg _ e rt)

theorem reads_msr (e : SysEnc) (rt : Reg) : Row.Reads ⟨m, v, bMsr .msr⟩ (.msr e rt) :=
  congrArg₂ Instr.msr (fEnc_encReg _ e rt) (fRt_encReg _ e rt)

theorem reads_sys (op1 : BitVec 3) (crn crm : BitVec 4) (op2 : BitVec 3) (rt : Reg) :
    Row.Reads ⟨m, v, bSys .sys⟩ (.sys op1 crn crm op2 rt) := by
  have hw : encode (.sys op1 crn crm op2 rt) =
      0b1101010100001#13 ++ op1 ++ crn ++ crm ++ op2 ++ rt := rfl
  simp only [Row.Reads, bSys, hw, Instr.sys.injEq]
  refine ⟨?_, ?_, ?_, ?_, ?_⟩ <;> refine BitVec.eq_of_getLsbD_eq fun i hi => ?_ <;>
    simp only [fRt, BitVec.getLsbD_extractLsb', BitVec.getLsbD_append] <;>
    interval_cases i <;> simp

theorem reads_bl (imm26 : BitVec 26) : Row.Reads ⟨m, v, bImm26 .bl⟩ (.bl imm26) := by
  have hw : encode (.bl imm26) = 0b100101#6 ++ imm26 := rfl
  simp only [Row.Reads, bImm26, hw, Instr.bl.injEq]
  refine BitVec.eq_of_getLsbD_eq fun i hi => ?_
  simp only [BitVec.getLsbD_extractLsb', BitVec.getLsbD_append]
  interval_cases i <;> simp

theorem reads_prfmImm (p : BitVec 5) (rn : Reg) (imm12 : BitVec 12) :
    Row.Reads ⟨m, v, bPrfmImm .prfmImm⟩ (.prfmImm p rn imm12) := by
  have hw : encode (.prfmImm p rn imm12) =
      0b1111100110#10 ++ imm12 ++ rn ++ p := rfl
  simp only [Row.Reads, bPrfmImm, hw, Instr.prfmImm.injEq]
  refine ⟨?_, ?_, ?_⟩ <;> refine BitVec.eq_of_getLsbD_eq fun i hi => ?_ <;>
    simp only [fRn, fRt, BitVec.getLsbD_extractLsb', BitVec.getLsbD_append] <;>
    interval_cases i <;> simp

theorem reads_prfum (p : BitVec 5) (rn : Reg) (imm9 : BitVec 9) :
    Row.Reads ⟨m, v, bPrfum .prfum⟩ (.prfum p rn imm9) := by
  have hw : encode (.prfum p rn imm9) =
      0b11111000100#11 ++ imm9 ++ 0b00#2 ++ rn ++ p := rfl
  simp only [Row.Reads, bPrfum, hw, Instr.prfum.injEq]
  refine ⟨?_, ?_, ?_⟩ <;> refine BitVec.eq_of_getLsbD_eq fun i hi => ?_ <;>
    simp only [fRn, fRt, BitVec.getLsbD_extractLsb', BitVec.getLsbD_append] <;>
    interval_cases i <;> simp

theorem reads_prfmReg (p : BitVec 5) (rn rm : Reg) (option : BitVec 3) (sh : BitVec 1) :
    Row.Reads ⟨m, v, bPrfmReg .prfmReg⟩ (.prfmReg p rn rm option sh) := by
  have hw : encode (.prfmReg p rn rm option sh) =
      0b11111000101#11 ++ rm ++ option ++ sh ++ 0b10#2 ++ rn ++ p := rfl
  simp only [Row.Reads, bPrfmReg, hw, Instr.prfmReg.injEq]
  refine ⟨?_, ?_, ?_, ?_, ?_⟩ <;> refine BitVec.eq_of_getLsbD_eq fun i hi => ?_ <;>
    simp only [fRs, fRn, fRt, BitVec.getLsbD_extractLsb', BitVec.getLsbD_append] <;>
    interval_cases i <;> simp

theorem reads_prfmLit (p : BitVec 5) (imm19 : BitVec 19) :
    Row.Reads ⟨m, v, bPrfmLit .prfmLit⟩ (.prfmLit p imm19) := by
  have hw : encode (.prfmLit p imm19) =
      0b11011000#8 ++ imm19 ++ p := rfl
  simp only [Row.Reads, bPrfmLit, hw, Instr.prfmLit.injEq]
  refine ⟨?_, ?_⟩ <;> refine BitVec.eq_of_getLsbD_eq fun i hi => ?_ <;>
    simp only [fRt, BitVec.getLsbD_extractLsb', BitVec.getLsbD_append] <;>
    interval_cases i <;> simp

end

/-! Every instruction has its row -/

/-- The table in its twelve parts. -/
noncomputable def rowParts : List (List Row) :=
  [rows0, rows1, rows2, rows3, rows4, rows5, rows6, rows7, rows8, rows9, rows10, rows11]

theorem rows_eq_flatten : rows = rowParts.flatten := by
  simp only [rows, rowParts, List.flatten_cons, List.flatten_nil, List.append_nil,
    List.append_assoc]

/-- The row of an instruction stands at the place of its constructor. -/
theorem exists_part_reads (i : Instr) : ∃ r,
    (rowParts[i.ctorIdx / 24]?.bind fun p => p[i.ctorIdx % 24]?) = some r ∧ r.Reads i := by
  cases i <;> dsimp only [Instr.ctorIdx] <;> refine ⟨_, rfl, ?_⟩
  case wfe | wfi | esb | retaa | retab | eret | eretaa | eretab => exact reads_bFixed
  case clrex | isb => exact reads_bCrm rfl
  case ramindex | dcZva | dcCisw | dcIvac => exact reads_bRt rfl
  case sys => exact reads_sys ..
  case mrs => exact reads_mrs ..
  case msr => exact reads_msr ..
  case bl => exact reads_bl _
  case blr | blraaz | blrabz | ret => exact reads_bRn rfl
  case blraa | blrab => exact reads_bRnRm rfl
  case ldxrb | ldxrh | ldxrW | ldxrX | ldaxrb | ldaxrh | ldaxrW | ldaxrX =>
    exact reads_bRtRn rfl
  case ldxpW | ldxpX | ldaxpW | ldaxpX => exact reads_bRtRt2Rn rfl
  case stxpW | stxpX | stlxpW | stlxpX => exact reads_bRsRtRt2Rn rfl
  case staddb | staddh | staddW | staddX | staddlb | staddlh | staddlW | staddlX | stclrb |
      stclrh | stclrW | stclrX | stclrlb | stclrlh | stclrlW | stclrlX | steorb | steorh |
      steorW | steorX | steorlb | steorlh | steorlW | steorlX | stsetb | stseth | stsetW |
      stsetX | stsetlb | stsetlh | stsetlW | stsetlX | stsmaxb | stsmaxh | stsmaxW | stsmaxX |
      stsmaxlb | stsmaxlh | stsmaxlW | stsmaxlX | stsminb | stsminh | stsminW | stsminX |
      stsminlb | stsminlh | stsminlW | stsminlX | stumaxb | stumaxh | stumaxW | stumaxX |
      stumaxlb | stumaxlh | stumaxlW | stumaxlX | stuminb | stuminh | stuminW | stuminX |
      stuminlb | stuminlh | stuminlW | stuminlX => exact reads_bRsRn rfl
  case prfmImm => exact reads_prfmImm ..
  case prfum => exact reads_prfum ..
  case prfmReg => exact reads_prfmReg ..
  case prfmLit => exact reads_prfmLit ..
  all_goals exact reads_bRsRtRn rfl

theorem exists_row_reads (i : Instr) : ∃ r ∈ rows, r.Reads i := by
  obtain ⟨r, hr, reads⟩ := exists_part_reads i
  obtain ⟨p, hp, hrp⟩ := Option.bind_eq_some_iff.1 hr
  refine ⟨r, ?_, reads⟩
  rw [rows_eq_flatten]
  exact List.mem_flatten.2 ⟨p, List.mem_of_getElem? hp, List.mem_of_getElem? hrp⟩

/-! Which of two rows comes first -/

/-- The row of `SYS` in general. -/
def Row.isSys (r : Row) : Bool := r.mask == 0xFFF80000

/-- A row of `LD<op>` without acquire: `A` [23], `o3` [15] and the bits [11:10] are 0 (R271). -/
def Row.isPlainLoad (r : Row) : Bool :=
  r.mask == 0xFFE0FC00 && r.val &&& 0x3FA08C00 == 0x38200000

/-- The word names one of the four `SYS` operations that have rows of their own. -/
def namesSys (w : Ins) : Bool :=
  isNamedSys (w.extractLsb' 16 3) (w.extractLsb' 12 4) (w.extractLsb' 8 4) (w.extractLsb' 5 3)

/-- What makes the instruction that a row builds from a word well-formed. -/
def Row.admits (r : Row) (w : Ins) : Bool :=
  bif r.isSys then !namesSys w else bif r.isPlainLoad then fRt w != 31 else true

/-- Some word may be selected by both rows: their values agree where both masks look. -/
def Row.overlaps (a b : Row) : Bool :=
  ((a.val.toNat ^^^ b.val.toNat) &&& (a.mask.toNat &&& b.mask.toNat)).beq 0

/-- Every word that the first row selects is one that the second does not take. -/
def Row.shadows (a b : Row) : Bool :=
  bif b.isSys then a.mask == 0xFFFFFFE0 && namesSys a.val
  else b.isPlainLoad && a.mask == 0xFFE0FC1F && fRt a.val == 31

/-- The first row may stand before the second. -/
def Row.mayPrecede (a b : Row) : Bool := bif a.overlaps b then a.shadows b else true

/-- Every row may stand before all the later ones. -/
def inOrder : List Row → Bool
  | [] => true
  | r :: l => l.all r.mayPrecede && inOrder l

theorem inOrder_pairwise (l : List Row) (h : inOrder l = true) :
    l.Pairwise fun a b => a.mayPrecede b = true := by
  induction l with
  | nil => exact .nil
  | cons r l ih =>
    rw [inOrder, Bool.and_eq_true, List.all_eq_true] at h
    exact .cons h.1 (ih h.2)

/-- The table is in order, by computation over its pairs of rows. -/
theorem rows_inOrder : rows.Pairwise fun a b => a.mayPrecede b = true :=
  inOrder_pairwise rows (by decide +kernel)

theorem Row.selects_iff {r : Row} {w : Ins} : r.selects w = true ↔ w &&& r.mask = r.val :=
  beq_iff_eq

theorem Row.overlaps_of_selects {a b : Row} {w : Ins} (ha : a.selects w = true)
    (hb : b.selects w = true) : a.overlaps b = true := by
  rw [Row.selects_iff] at ha hb
  have agree : (a.val ^^^ b.val) &&& (a.mask &&& b.mask) = 0#32 := by
    rw [← ha, ← hb]
    refine Ins.ext_bits fun i _ => ?_
    simp only [BitVec.getLsbD_and, BitVec.getLsbD_xor, BitVec.getLsbD_zero]
    cases w.getLsbD i <;> cases a.mask.getLsbD i <;> cases b.mask.getLsbD i <;> rfl
  have := congrArg BitVec.toNat agree
  simpa [Row.overlaps] using this

/-- A word agrees with the value of a row that selects it in the fields of its mask. -/
theorem Row.extract_of_selects {r : Row} {w : Ins} (h : r.selects w = true) (k n : Nat)
    (hm : r.mask.extractLsb' k n = BitVec.allOnes n) :
    w.extractLsb' k n = r.val.extractLsb' k n := by
  rw [← Row.selects_iff.1 h, BitVec.extractLsb'_and, hm, BitVec.and_allOnes]

theorem Row.not_admits_of_shadows {a b : Row} {w : Ins} (h : a.shadows b = true)
    (ha : a.selects w = true) : b.admits w = false := by
  unfold Row.shadows at h
  unfold Row.admits
  cases hs : b.isSys with
  | true =>
    simp only [hs, cond_true, Bool.and_eq_true, beq_iff_eq] at h
    obtain ⟨hm, named⟩ := h
    have same : namesSys w = namesSys a.val := by
      unfold namesSys
      rw [Row.extract_of_selects ha 16 3 (by rw [hm]; rfl),
        Row.extract_of_selects ha 12 4 (by rw [hm]; rfl),
        Row.extract_of_selects ha 8 4 (by rw [hm]; rfl),
        Row.extract_of_selects ha 5 3 (by rw [hm]; rfl)]
    simp [same, named]
  | false =>
    simp only [hs, cond_false, Bool.and_eq_true, beq_iff_eq] at h
    obtain ⟨⟨load, hm⟩, hv⟩ := h
    have h31 : fRt w = 31 := (Row.extract_of_selects ha 0 5 (by rw [hm]; rfl)).trans hv
    simp [load, h31]

/-- Whether the instruction that a row builds is well-formed is what the row admits. -/
theorem rows_admit : ∀ r ∈ rows, ∀ w, (r.build w).wellFormed = r.admits w := by
  unfold rows rows0 rows1 rows2 rows3 rows4 rows5 rows6 rows7 rows8 rows9 rows10 rows11
  repeat refine List.forall_mem_cons.2 ⟨fun _ => rfl, ?_⟩
  exact List.forall_mem_nil _

/-- The value of a row lies in its mask. -/
theorem rows_val_masked : ∀ r ∈ rows, r.val &&& r.mask = r.val := by
  have all : rows.all (fun r => r.val &&& r.mask == r.val) = true := by decide +kernel
  exact fun r hr => beq_iff_eq.1 (List.all_eq_true.1 all r hr)

/-- The row of `SYS` in general has its value. -/
theorem rows_sys_val : ∀ r ∈ rows, r.isSys = true → r.val = 0xD5080000 := by
  have all : rows.all (fun r => !r.isSys || r.val == 0xD5080000) = true := by decide +kernel
  intro r hr hs
  simpa [hs] using List.all_eq_true.1 all r hr

/-- Each plain load has a store form, in a row of its own (R278). -/
theorem rows_storeForm : ∀ r ∈ rows, r.isPlainLoad = true →
    ∃ a ∈ rows, a.mask = 0xFFE0FC1F ∧ a.val = r.val ||| 0x1F := by
  have all : rows.all (fun r => bif r.isPlainLoad then
      (rows3 ++ rows4 ++ rows5).any fun a => a.mask == 0xFFE0FC1F && a.val == r.val ||| 0x1F
      else true) = true := by decide +kernel
  intro r hr hl
  have found := List.all_eq_true.1 all r hr
  rw [hl, cond_true, List.any_eq_true] at found
  obtain ⟨a, ha, form⟩ := found
  rw [Bool.and_eq_true, beq_iff_eq, beq_iff_eq] at form
  have hmem : a ∈ rows := by
    rcases List.mem_append.1 ha with h | h
    · rcases List.mem_append.1 h with h | h <;>
        simp only [rows, List.mem_append, h, true_or, or_true]
    · simp only [rows, List.mem_append, h, true_or, or_true]
  exact ⟨a, hmem, form⟩

/-! Decoding after encoding, and encoding after decoding -/

/-- The word that a row fills in is the one it read, where it selects it. -/
theorem encode_build_of_selects {r : Row} (hr : r ∈ rows) {w : Ins} (h : r.selects w = true) :
    encode (r.build w) = w := by
  rw [rows_fill r hr w, ← Row.selects_iff.1 h]
  refine Ins.ext_bits fun i hi => ?_
  simp only [BitVec.getLsbD_or, BitVec.getLsbD_and, BitVec.getLsbD_not, hi, decide_true,
    Bool.true_and]
  cases w.getLsbD i <;> cases r.mask.getLsbD i <;> rfl

/-- The row that reads an instruction selects its word. -/
theorem Row.Reads.selects {r : Row} {i : Instr} (hr : r ∈ rows) (h : r.Reads i) :
    r.selects (encode i) = true := by
  have filled : encode i = r.val ||| (encode i &&& ~~~r.mask) :=
    (congrArg encode h).symm.trans (rows_fill r hr _)
  rw [Row.selects_iff, filled, ← rows_val_masked r hr]
  refine Ins.ext_bits fun k _ => ?_
  simp only [BitVec.getLsbD_or, BitVec.getLsbD_and, BitVec.getLsbD_not]
  cases r.mask.getLsbD k <;> simp

/-- Settles O1: the first row that selects the word of a well-formed instruction is the row of its
constructor, since a row before it would not take the word. -/
theorem everyWellFormedInstructionDecodes : Obligations.EveryWellFormedInstructionDecodes := by
  intro i hwf
  obtain ⟨r, hr, reads⟩ := exists_row_reads i
  have hsel := reads.selects hr
  obtain ⟨a, hfirst⟩ : ∃ a, rows.find? (fun r => r.selects (encode i)) = some a :=
    Option.isSome_iff_exists.1 (List.find?_isSome.2 ⟨r, hr, hsel⟩)
  suffices a = r by
    rw [decodeWord, hfirst, this]
    exact congrArg Except.ok reads
  obtain ⟨ha, pre, post, hrows, hpre⟩ := List.find?_eq_some_iff_append.1 hfirst
  have order := rows_inOrder
  rw [hrows] at hr order
  rcases List.mem_append.1 hr with h | h
  · simpa [hsel] using hpre r h
  rcases List.mem_cons.1 h with h | h
  · exact h.symm
  · have later := (List.pairwise_cons.1 (List.pairwise_append.1 order).2.1).1 r h
    rw [Row.mayPrecede, Row.overlaps_of_selects ha hsel, cond_true] at later
    have admitted : r.admits (encode i) = true := by
      rw [← rows_admit r (hrows ▸ hr), reads, hwf]
    rw [Row.not_admits_of_shadows later ha] at admitted
    exact absurd admitted (by decide)

/-- A word of the `SYS` format is its format with its fields. -/
theorem sys_word {w : Ins} (h : w &&& 0xFFF80000 = 0xD5080000) :
    0b1101010100001#13 ++ w.extractLsb' 16 3 ++ w.extractLsb' 12 4 ++ w.extractLsb' 8 4 ++
      w.extractLsb' 5 3 ++ fRt w = w :=
  encode_build_of_selects (r := ⟨0xFFF80000, 0xD5080000, bSys .sys⟩)
    (by simp only [rows, rows0, List.mem_append, List.mem_cons, true_or, or_true])
    (Row.selects_iff.2 h)

/-- The fixed bits of a store form are those of the load with `Rt`. -/
theorem masked_append_fRt (w : Ins) :
    w &&& 0xFFE0FC1F = (w &&& 0xFFE0FC00) ||| (0#27 ++ fRt w : Ins) := by
  refine Ins.ext_bits fun i hi => ?_
  simp only [fRt, BitVec.getLsbD_append, BitVec.getLsbD_or, BitVec.getLsbD_and]
  interval_cases i <;> simp

/-- A word that a row selects is the word of a well-formed instruction: the one the row builds, or
the special form of it. -/
theorem exists_wellFormed_of_selects {r : Row} (hr : r ∈ rows) {w : Ins}
    (h : r.selects w = true) : ∃ i : Instr, i.wellFormed = true ∧ encode i = w := by
  by_cases hadm : r.admits w = true
  · exact ⟨r.build w, (rows_admit r hr w).trans hadm, encode_build_of_selects hr h⟩
  rw [Bool.not_eq_true] at hadm
  rw [Row.selects_iff] at h
  cases hs : r.isSys with
  | true =>
    have hm : r.mask = 0xFFF80000 := beq_iff_eq.1 hs
    have hw := sys_word (w := w) (by rw [← hm, h, rows_sys_val r hr hs])
    have named : namesSys w = true := by simpa [Row.admits, hs] using hadm
    simp only [namesSys, isNamedSys, Bool.or_eq_true, Bool.and_eq_true, beq_iff_eq] at named
    obtain ((⟨⟨⟨h1, h2⟩, h3⟩, h4⟩ | ⟨⟨⟨h1, h2⟩, h3⟩, h4⟩) | ⟨⟨⟨h1, h2⟩, h3⟩, h4⟩) |
      ⟨⟨⟨h1, h2⟩, h3⟩, h4⟩ := named <;> rw [h1, h2, h3, h4] at hw
    · exact ⟨.ramindex (fRt w), rfl, hw⟩
    · exact ⟨.dcZva (fRt w), rfl, hw⟩
    · exact ⟨.dcCisw (fRt w), rfl, hw⟩
    · exact ⟨.dcIvac (fRt w), rfl, hw⟩
  | false =>
    cases hl : r.isPlainLoad with
    | false => simp [Row.admits, hs, hl] at hadm
    | true =>
      have h31 : fRt w = 31 := by simpa [Row.admits, hs, hl] using hadm
      obtain ⟨a, ha, hmask, hval⟩ := rows_storeForm r hr hl
      have hm : r.mask = 0xFFE0FC00 := by
        rw [Row.isPlainLoad, Bool.and_eq_true] at hl
        exact beq_iff_eq.1 hl.1
      have hsel : a.selects w = true := by
        rw [Row.selects_iff, hmask, hval, masked_append_fRt, ← hm, h, h31]
        rfl
      refine ⟨a.build w, ?_, encode_build_of_selects ha hsel⟩
      rw [rows_admit a ha]
      simp [Row.admits, Row.isSys, Row.isPlainLoad, hmask]

/-- Settles O2: the word is that of a well-formed instruction, which is what it decodes to. -/
theorem everyDecodedWordEncodesBack : Obligations.EveryDecodedWordEncodesBack := by
  intro w i h
  obtain ⟨r, hfirst⟩ : ∃ r, rows.find? (fun r => r.selects w) = some r := by
    cases hf : rows.find? (fun r => r.selects w) with
    | some r => exact ⟨r, rfl⟩
    | none =>
      by_cases he : isExclusiveFormat w = true <;> simp [decodeWord, hf, he] at h
  obtain ⟨j, hj, rfl⟩ := exists_wellFormed_of_selects (List.mem_of_find?_eq_some hfirst)
    (List.find?_some (p := fun r : Row => r.selects w) hfirst)
  rw [everyWellFormedInstructionDecodes j hj] at h
  cases h
  exact ⟨hj, rfl⟩

/-- Settles O3: the words are those that the encoder writes. -/
theorem writtenWordsDecode : Obligations.WrittenWordsDecode := by
  have decodes := everyWellFormedInstructionDecodes
  exact ⟨decodes .wfi rfl, decodes .esb rfl, decodes (.isb 15) rfl, decodes (.clrex 15) rfl,
    decodes (.ramindex 0) rfl, decodes (.dcCisw 3) rfl, decodes (.dcZva 3) rfl,
    decodes (.bl 0x3FFFFFF) rfl, decodes (.blraa 5 6) rfl, decodes (.ret 30) rfl,
    decodes (.ldxpX 0 2 1) rfl, decodes (.stxpX 2 0 3 1) rfl, decodes (.casW 0 2 1) rfl,
    decodes (.caspX 0 2 4) rfl, decodes (.lduminlh 0 2 1) rfl, decodes (.staddW 0 1) rfl,
    decodes (.swpW 0 2 1) rfl, decodes (.prfmImm 0 1 8) rfl⟩

end Sys2Proof
end

section
/-! Facts that the proofs of several statements share: what a synchronous exception, an advance and
a write of a register beside the one in question leave. -/

namespace Sys2Proof.Machine

/-! Synchronous exceptions -/

/-- A synchronous exception of the instruction at `pc`, by its class and syndrome. -/
theorem State.takeSync_took (s : State) (t : EL) {ec : Nat} {iss : BitVec 25} {w : Word}
    (hw : esrWord ec iss = w) : TookSync s (s.takeSync t ec iss) t w :=
  hw ▸ TookSync.of_entry s t _ .unknown none

@[simp] theorem State.takeSync_eventReg (s : State) (t : EL) (ec : Nat) (iss : BitVec 25) :
    (s.takeSync t ec iss).eventReg = s.eventReg := State.takeException_eventReg _ _

@[simp] theorem State.takeSync_returnStack (s : State) (t : EL) (ec : Nat) (iss : BitVec 25) :
    (s.takeSync t ec iss).returnStack = s.returnStack := State.takeException_returnStack _ _

/-! Advancing -/

/-- An instruction that advances, where `pc + 4` exists. -/
theorem State.advanceWith_next_of_hasNext {s : State} (f : State → State) (h : s.hasNext) :
    s.advanceWith f = .next (f s.advanced) := s.advanceWith_eq f h

/-! Writes of other registers -/

/-- A control register after a write of another register. -/
theorem State.ctl_put_of_ne (s : State) {r q : SysReg} (v : Word) (h : q ≠ r) :
    (s.put r v).ctl q = s.ctl q := by
  have same : (s.put r v).get q = s.get q := by rw [State.get_put, if_neg h]
  unfold State.ctl
  rw [same]
  rfl

end Sys2Proof.Machine
end

section
/-! Proofs of the statements about hints, barriers and RAMINDEX (R300 to R314). -/

namespace Sys2Proof.Machine

/-! WFE and WFI -/

/-- WFE with the event register set. -/
theorem execWfe_of_event {s : State} (he : s.eventReg = true) (h : s.hasNext) :
    execWfe s = .next { s.advanced with eventReg := false } := by
  rw [execWfe, if_pos he, State.advanceWith_next_of_hasNext _ h]

/-- WFE that would sleep is trapped or sleeps. -/
theorem execWfe_of_noEvent {s : State} (he : s.eventReg = false) :
    execWfe s = .next ((s.sleepTrap true).getD (s.enterSleep .wfe false)) := by
  rw [execWfe, if_neg (by simp [he])]
  cases s.sleepTrap true <;> rfl

/-- WFI with a wake-up event pending and no powerdown enabled. -/
theorem execWfi_of_wakes {s : State} (hr : bit (s.ctl .rmr_el3) 1 = false)
    (hp : s.powerdownEnabled = false) (hw : s.wfiWakes = true) (h : s.hasNext) :
    execWfi s = .next (s.advanced.record .completed) := by
  rw [execWfi, if_neg (by simp [hr]), if_pos (by simp [hp, hw]),
    State.advanceWith_next_of_hasNext _ h]

/-- WFI that would sleep is trapped or sleeps. -/
theorem execWfi_of_sleeps {s : State} (hr : bit (s.ctl .rmr_el3) 1 = false)
    (hp : s.powerdownEnabled = true ∨ s.wfiWakes = false) :
    execWfi s =
      .next ((s.sleepTrap false).getD (s.enterSleep .wfi s.powerdownEnabled)) := by
  have stays : ¬ (!s.powerdownEnabled && s.wfiWakes) = true := by
    rcases hp with h | h <;> simp [h]
  rw [execWfi, if_neg (by simp [hr]), if_neg stays]
  cases s.sleepTrap false <;> rfl

/-- Settles O9, by cases on the event register. -/
theorem wfeClearsEventOrSleeps : Obligations.WfeClearsEventOrSleeps := by
  refine fun s => ⟨fun he h => ?_, fun he ht => ?_⟩
  · exact ⟨_, execWfe_of_event he h, rfl, rfl, rfl, ⟨fun _ _ => rfl, rfl, rfl, rfl, rfl⟩, rfl, rfl⟩
  · refine ⟨s.enterSleep .wfe false, ?_, rfl, rfl, he, rfl,
      ⟨fun _ _ => rfl, rfl, rfl, rfl, rfl⟩, rfl, rfl⟩
    exact (execWfe_of_noEvent he).trans (by rw [ht]; rfl)

/-- Settles O10: the Warm reset first, then a wake-up event, else the sleep. -/
theorem wfiCompletesOrSleeps : Obligations.WfiCompletesOrSleeps := by
  refine fun s => ⟨fun hr => ?_, fun hr hp hw h => ?_, fun hr hp ht => ?_⟩
  · exact ⟨_, if_pos hr, rfl, rfl, ⟨fun _ _ => rfl, rfl, rfl, rfl, rfl⟩, rfl⟩
  · exact ⟨_, execWfi_of_wakes hr hp hw h, rfl, rfl, ⟨fun _ _ => rfl, rfl, rfl, rfl, rfl⟩, rfl, rfl⟩
  · refine ⟨s.enterSleep .wfi s.powerdownEnabled, ?_, rfl, rfl, rfl,
      ⟨fun _ _ => rfl, rfl, rfl, rfl, rfl⟩, rfl, rfl⟩
    exact (execWfi_of_sleeps hr hp).trans (by rw [ht]; rfl)

/-- The level that traps a WFI or WFE that would sleep (R303, R305, R457). -/
theorem State.sleepTrap_eq_some {s : State} {wfe : Bool} {el : EL}
    (h : (s.el < 3 ∧ bit s.scr (if wfe then 13 else 12) = true ∧ el = 3) ∨
      (s.el < 2 ∧ bit s.scr (if wfe then 13 else 12) = false ∧ s.el2Enabled = true ∧
        bit s.hcr (if wfe then 14 else 13) = true ∧ el = 2) ∨
      (s.el = 0 ∧ bit s.scr (if wfe then 13 else 12) = false ∧
        (s.el2Enabled = false ∨ bit s.hcr (if wfe then 14 else 13) = false) ∧
        bit s.sctlr (if wfe then 18 else 16) = false ∧ el = s.syncTarget)) :
    s.sleepTrap wfe = some (s.takeSync el 0x01 (trapCond ||| (if wfe then 1 else 0))) := by
  unfold State.sleepTrap
  dsimp only
  rcases h with ⟨hl, hs, rfl⟩ | ⟨hl, hs, he, hh, rfl⟩ | ⟨hl, hs, hh, hz, rfl⟩
  · rw [if_pos (by simp [hl, hs])]
  · rw [if_neg (by simp [hs]), if_pos (by simp [State.hcrBelow, hl, he, hh])]
  · rw [if_neg (by simp [hs]), if_neg (by rcases hh with h | h <;> simp [State.hcrBelow, h]),
      if_pos (by simp [hl, hz])]

/-- Settles O11: what would sleep takes the trap of `sleepTrap` instead. -/
theorem trappedSleepInstruction : Obligations.TrappedSleepInstruction := by
  intro s wfe i hi hev hwfi el hel
  have trap := State.sleepTrap_eq_some hel
  refine ⟨s.takeSync el 0x01 (trapCond ||| (if wfe then 1 else 0)), ?_, ?_, rfl,
    State.takeSync_eventReg _ _ _ _⟩
  · cases wfe with
    | true =>
      subst hi
      exact (execWfe_of_noEvent (hev rfl)).trans (by rw [trap]; rfl)
    | false =>
      subst hi
      exact (execWfi_of_sleeps (hwfi rfl).1 (hwfi rfl).2).trans (by rw [trap]; rfl)
  · exact s.takeSync_took el (by cases wfe <;> decide)

/-! Barriers -/

/-- Settles O14: the `CRm` is not read, and a context synchronisation event leaves no old value. -/
theorem isbSynchronisesContext : Obligations.IsbSynchronisesContext := by
  refine fun crm s => ⟨fun _ => rfl, fun h => ?_⟩
  exact ⟨_, State.advanceWith_next_of_hasNext _ h, fun r => State.contextSync_ctl _ r, rfl,
    ⟨fun _ _ => rfl, rfl, rfl, rfl, rfl⟩, rfl, rfl⟩

/-- The word of CLREX, with its `CRm` at bit 8. -/
theorem encode_clrex (crm : BitVec 4) :
    encode (.clrex crm) = 0xD503305F ||| (crm.setWidth 32 <<< 8) := by
  refine Ins.ext_bits fun i hi => ?_
  simp only [show encode (.clrex crm) = 0xD5033#20 ++ crm ++ 0x5F#8 from rfl,
    BitVec.getLsbD_append, BitVec.getLsbD_or, BitVec.getLsbD_shiftLeft, BitVec.getLsbD_setWidth]
  interval_cases i <;> simp

/-- Settles O13: CLREX is read from its word with its `CRm`, and opens the monitor as it advances.
-/
theorem clrexOpensMonitor : Obligations.ClrexOpensMonitor := by
  refine fun crm s => ⟨?_, fun h => ?_⟩
  · exact encode_clrex crm ▸ everyWellFormedInstructionDecodes (.clrex crm) rfl
  · exact ⟨_, State.advanceWith_next_of_hasNext _ h, rfl, rfl, ⟨fun _ _ => rfl, rfl, rfl, rfl, rfl⟩,
      rfl, rfl⟩

/-! RAMINDEX -/

/-- The twelve direct-access data registers, each once and in their group. -/
theorem ramDataRegs_group : ∀ p ∈ ramDataRegs, p.1.info.group = .ramData ∧
    ramDataRegs.find? (fun q => q.1 == p.1) = some p := by decide

/-- A register of another group is none of the twelve. -/
theorem ramDataRegs_find_of_group {q : SysReg} (h : q.info.group ≠ .ramData) :
    ramDataRegs.find? (fun p => p.1 == q) = none := by
  rw [List.find?_eq_none]
  intro p hp hq
  rw [beq_iff_eq] at hq
  exact h (hq ▸ (ramDataRegs_group p hp).1)

/-- Settles O16, from what the RAMINDEX write leaves (`doRamIndex_get`, `doRamIndex_same`). -/
theorem ramindexCompletesAtEl3 : Obligations.RamindexCompletesAtEl3 := by
  intro s rt hel h
  have done : execRamindex rt s = .next (s.advanced.doRamIndex (s.xr rt)) := by
    rw [execRamindex, if_pos hel, State.advanceWith_next_of_hasNext _ h]
  refine ⟨_, done, fun p hp => ?_, fun q hq => ?_, ?_⟩
  · rw [State.doRamIndex_get, (ramDataRegs_group p hp).2]
    rfl
  · rw [State.doRamIndex_get, ramDataRegs_find_of_group hq]
    rfl
  · obtain ⟨v, hv⟩ := s.advanced.doRamIndex_same (s.xr rt)
    rw [hv]
    exact ⟨rfl, rfl, rfl, rfl, rfl, rfl, rfl, rfl, rfl, rfl⟩

end Sys2Proof.Machine
end

section
/-! Proofs of the statements about what an exception saves and where it goes (R464, R465), and the
values of the atomic operations (R401 to R409). -/

namespace Sys2Proof.Machine

/-! PSTATE in SPSR (R464, R467) -/

/-- A bit of one flag's place. -/
theorem getLsbD_flagAt (b : Bool) {i j : Nat} (hj : j < 64) :
    (flagAt b i).getLsbD j = (b && decide (i = j)) := by
  cases b with
  | false => simp [flagAt]
  | true =>
    simp only [flagAt, if_true, BitVec.getLsbD_shiftLeft, BitVec.getLsbD_one, hj, decide_true,
      Bool.true_and, Nat.zero_lt_succ]
    by_cases h : i = j
    · simp [h]
    · by_cases hl : j < i
      · simp [h, hl]
      · simp [h, hl, show j - i ≠ 0 by omega]

/-- An Exception level has two bits. -/
theorem getLsbD_el (l : EL) (j : Nat) : (BitVec.ofNat 64 l.val).getLsbD j =
    (BitVec.ofNat 2 l.val).getLsbD j := by
  have small : l.val < 2 ^ 2 := l.isLt
  by_cases hj : j < 2
  · simp only [BitVec.getLsbD_ofNat, hj, show j < 64 by omega]
  · have : l.val.testBit j = false :=
      Nat.testBit_lt_two_pow (small.trans_le (Nat.pow_le_pow_right (by decide) (by omega)))
    simp [BitVec.getLsbD_ofNat, this]

/-- A bit of the packed PSTATE, from the places that the entry table gives. -/
theorem bit_packPState (p : PState) {j : Nat} (hj : j < 64) : bit (packPState p) j =
    ((p.n && decide (31 = j)) || (p.z && decide (30 = j)) || (p.c && decide (29 = j)) ||
      (p.v && decide (28 = j)) || (p.tco && decide (25 = j)) || (p.dit && decide (24 = j)) ||
      (p.uao && decide (23 = j)) || (p.pan && decide (22 = j)) || (p.ss && decide (21 = j)) ||
      (p.il && decide (20 = j)) || (p.ssbs && decide (12 = j)) ||
      (decide (10 ≤ j) && p.btype.getLsbD (j - 10)) || (p.d && decide (9 = j)) ||
      (p.a && decide (8 = j)) || (p.i && decide (7 = j)) || (p.f && decide (6 = j)) ||
      (p.nRW && decide (4 = j)) ||
      (decide (2 ≤ j) && (BitVec.ofNat 2 p.el.val).getLsbD (j - 2)) ||
      (p.sp && decide (0 = j))) := by
  have sub (k : Nat) : j - k < 64 := by omega
  simp only [bit, packPState, BitVec.getLsbD_or, getLsbD_flagAt _ hj, BitVec.getLsbD_shiftLeft,
    getLsbD_el, BitVec.getLsbD_setWidth, hj, sub, decide_true, Bool.true_and, ← not_lt,
    decide_not]

/-- `BTYPE` in the packed PSTATE. -/
theorem packPState_btype (p : PState) : (packPState p).extractLsb' 10 2 = p.btype := by
  refine BitVec.eq_of_getLsbD_eq fun i hi => ?_
  have h := bit_packPState p (j := 10 + i) (by omega)
  rw [bit] at h
  rw [BitVec.getLsbD_extractLsb', h]
  interval_cases i <;> simp

/-- The level in the packed PSTATE. -/
theorem packPState_el (p : PState) : (packPState p).extractLsb' 2 2 = BitVec.ofNat 2 p.el.val := by
  refine BitVec.eq_of_getLsbD_eq fun i hi => ?_
  have h := bit_packPState p (j := 2 + i) (by omega)
  rw [bit] at h
  rw [BitVec.getLsbD_extractLsb', h]
  interval_cases i <;> simp

/-- A field of a register, as the bits it is cut from. -/
theorem field_eq_extract (w : Word) (lo len : Nat) : field w lo len =
    (w.extractLsb' lo len).toNat := by
  rw [BitVec.extractLsb'_toNat, field]

theorem field_packPState_el (p : PState) : field (packPState p) 2 2 = p.el.val := by
  rw [field_eq_extract, packPState_el, BitVec.toNat_ofNat, Nat.mod_eq_of_lt p.el.isLt]

/-- Unpacking the packed PSTATE gives it back. -/
theorem unpack_packPState (p : PState) : unpackPState (packPState p) = p := by
  have level : Fin.ofNat 4 (field (packPState p) 2 2) = p.el := by
    rw [field_packPState_el]
    exact Fin.ext (Nat.mod_eq_of_lt p.el.isLt)
  rw [unpackPState, packPState_btype, level]
  simp [bit_packPState]

/-- Settles O46, from the bits of the packed PSTATE. -/
theorem savedStatusRoundTrip : Obligations.SavedStatusRoundTrip := by
  intro p
  have btype : field (packPState p) 10 2 = p.btype.toNat := by
    rw [field_eq_extract, packPState_btype]
  refine ⟨unpack_packPState p, ?_⟩
  simp [bit_packPState, btype, field_packPState_el]

/-! The vector table (R465) -/

/-- Clearing the low 11 bits of an address by a mask and by shifts. -/
theorem and_not_low11 (w : Word) : w &&& ~~~0x7FF#64 = (w >>> 11) <<< 11 := by
  refine BitVec.eq_of_getLsbD_eq fun i hi => ?_
  have low : (0x7FF#64).getLsbD i = decide (i < 11) := by
    interval_cases i <;> rfl
  simp only [BitVec.getLsbD_and, BitVec.getLsbD_not, low, BitVec.getLsbD_shiftLeft,
    BitVec.getLsbD_ushiftRight, hi]
  by_cases h : i < 11
  · simp [h]
  · simp [h, show 11 + (i - 11) = i by omega]

/-- Settles O45: the row and the column are those of `vectorAddress`. -/
theorem vectorTable : Obligations.VectorTable := by
  intro s t c
  refine ⟨s.vectorRow t, c.offset, ?_, fun ht hs => ?_, fun ht hs => ?_, fun ht => if_neg ht, ?_⟩
  · rw [State.vectorAddress, and_not_low11]
  · rw [State.vectorRow, if_pos ht, if_neg (by simp [hs])]
  · rw [State.vectorRow, if_pos ht, if_pos hs]
  · cases c <;> simp [VectorColumn.offset]

/-! The atomic operations (R401 to R409) -/

/-- Settles O39, by the two cases of each comparison. -/
theorem atomicOperationValues : Obligations.AtomicOperationValues := by
  intro w m v
  refine ⟨BitVec.toNat_add m v, fun i => ?_, fun i => BitVec.getLsbD_xor, fun i =>
    BitVec.getLsbD_or, ?_, ?_, ?_, ?_, rfl⟩
  · by_cases hi : i < w
    · simp [AtomicOp.result, hi]
    · simp [AtomicOp.result, BitVec.getLsbD_of_ge m i (by omega)]
  all_goals
    simp only [AtomicOp.result]
    split <;> omega

end Sys2Proof.Machine
end

section
/-! Proofs of the statements about exception entry and return, and about ESB (R310, R464, R467). -/

namespace Sys2Proof.Machine

/-! Exception entry (R464) -/

/-- With every write synchronised a control register is as stored. -/
theorem State.ctl_of_synced {s : State} (h : s.unsynced = []) (r : SysReg) : s.ctl r = s.get r :=
  s.ctl_of_olds r (by simp [State.olds, h])

/-- A register that no exception entry writes. -/
theorem State.takeException_get_of_ne (s : State) (e : Entry) {q : SysReg}
    (hs : q ≠ spsrOf e.target) (hr : q ≠ elrOf e.target) (he : q ≠ esrOf e.target)
    (hf : q ≠ farOf e.target) (hh : q ≠ .hpfar_el2) : (s.takeException e).get q = s.get q := by
  simp [State.takeException_get, hs, hr, he, hf, hh]

/-- The registers that say what is saved where. -/
theorem State.takeException_saves (s : State) (e : Entry) :
    (s.takeException e).get (spsrOf e.target) = packPState s.pstate ∧
      (s.takeException e).get (elrOf e.target) = e.ret := by
  obtain ⟨h1, h2, h3, h4, h5, h6, h7, h8, h9, h10⟩ := excRegs_ne e.target
  exact ⟨by simp [State.takeException_get, h1.symm, h3.symm, h6.symm, h10],
    by simp [State.takeException_get, h2.symm, h5.symm, h9]⟩

/-- The syndrome register after an entry. -/
theorem State.takeException_esr (s : State) (e : Entry) :
    (s.takeException e).get (esrOf e.target) = e.esr.getD (s.get (esrOf e.target)) := by
  obtain ⟨h1, h2, h3, h4, h5, h6, h7, h8, h9, h10⟩ := excRegs_ne e.target
  cases he : e.esr <;> simp [State.takeException_get, h1, h2, h4.symm, h8, he]

/-- The fault address register after an entry that keeps it. -/
theorem State.takeException_far_keep (s : State) (e : Entry) (h : e.far = .keep) :
    (s.takeException e).get (farOf e.target) = s.get (farOf e.target) := by
  obtain ⟨h1, h2, h3, h4, h5, h6, h7, h8, h9, h10⟩ := excRegs_ne e.target
  simp [State.takeException_get, h, h4, h5, h6, h7]

/-- Settles O44, from the registers and the fields after an entry. -/
theorem exceptionEntry : Obligations.ExceptionEntry := by
  intro s t e ht h
  subst h
  obtain ⟨hspsr, helr⟩ := s.takeException_saves e
  refine ⟨hspsr, helr, fun w hw => ?_, fun hw => ?_, fun va hva => ?_,
    s.takeException_far_keep e, fun w hw => ?_, rfl, ⟨rfl, rfl, rfl, rfl⟩,
    ⟨rfl, rfl, rfl, rfl, rfl, rfl⟩, ⟨rfl, rfl, rfl, rfl⟩, ⟨rfl, rfl, rfl, rfl⟩, ?_,
    s.takeException_monitor e, State.takeException_x s e, State.takeException_sp s e,
    State.takeException_vec s e, State.takeException_mem s e,
    State.ctl_of_synced (State.takeException_unsynced s e)⟩
  · rw [State.takeException_esr, hw]
    rfl
  · rw [State.takeException_esr, hw]
    rfl
  · obtain ⟨-, -, -, -, -, -, hne, -⟩ := excRegs_ne e.target
    simp [State.takeException_get, hva, hne]
  · simp [State.takeException_get, hw]
  · rw [State.takeException_pstate, State.handlerPState]
    simp only [Bool.and_eq_true, Bool.or_eq_true, decide_eq_true_eq, Bool.not_eq_true', and_assoc]

/-- A control register outside those that an entry writes, with every write synchronised. -/
theorem State.takeException_ctl {s : State} (h : s.unsynced = []) (e : Entry) {q : SysReg}
    (hq : q = .hcr_el2 ∨ q = .scr_el3) : (s.takeException e).ctl q = s.ctl q := by
  have apart : ∀ l : EL, q ≠ spsrOf l ∧ q ≠ elrOf l ∧ q ≠ esrOf l ∧ q ≠ farOf l ∧
      q ≠ .hpfar_el2 := by
    rcases hq with rfl | rfl <;> decide
  obtain ⟨h1, h2, h3, h4, h5⟩ := apart e.target
  rw [State.ctl_of_synced (State.takeException_unsynced s e), State.ctl_of_synced h,
    State.takeException_get_of_ne s e h1 h2 h3 h4 h5]

/-- What depends on the control registers of EL2 and EL3 alone is the same in the handler. -/
theorem State.takeException_controls {s : State} (h : s.unsynced = []) (e : Entry) :
    (s.takeException e).el2Enabled = s.el2Enabled ∧ (s.takeException e).tge = s.tge ∧
      (s.takeException e).hcr = s.hcr := by
  have hhcr : (s.takeException e).hcr = s.hcr := State.takeException_ctl h e (.inl rfl)
  have hscr : (s.takeException e).scr = s.scr := State.takeException_ctl h e (.inr rfl)
  have hel2 : (s.takeException e).el2Enabled = s.el2Enabled := by
    rw [State.el2Enabled, State.nsBelow, hscr]
    rfl
  exact ⟨hel2, by rw [State.tge, hel2, hhcr]; rfl, hhcr⟩

/-! The return from the handler (R467) -/

/-- The state that an entry to a higher or the same level has saved is one to return to. -/
theorem State.illegalReturn_pack {s t : State} (hm : LegalMode s) (hle : s.el ≤ t.el)
    (h2 : s.el = 2 → t.el2Enabled = true) (h1 : s.el = 1 → t.tge = false) :
    t.illegalReturn (packPState s.pstate) = false := by
  have level : Fin.ofNat 4 (field (packPState s.pstate) 2 2) = s.el := by
    rw [field_packPState_el]
    exact Fin.ext (Nat.mod_eq_of_lt s.pstate.el.isLt)
  have width : bit (packPState s.pstate) 4 = false := by
    simp [bit_packPState, hm.aarch64]
  have reserved : bit (packPState s.pstate) 1 = false := by simp [bit_packPState]
  have pointer : bit (packPState s.pstate) 0 = s.pstate.sp := by simp [bit_packPState]
  unfold State.illegalReturn
  simp only [level, width, reserved, pointer, not_lt.2 hle, decide_false, Bool.false_or,
    Bool.or_eq_false_iff, Bool.and_eq_false_imp, beq_iff_eq, Bool.not_eq_false']
  exact ⟨⟨hm.el0Stack, h2⟩, h1⟩

/-- Settles O47: the handler's return finds in SPSR and ELR what the entry has saved. -/
theorem entryThenReturnRestores : Obligations.EntryThenReturnRestores := by
  intro s t u ec iss el hm hsync hel hle h2 h1 hnv ht hu
  obtain ⟨hel2, htge, hhcr⟩ := State.takeException_controls hsync
    ⟨el, .sync, s.pc, some (esrWord ec iss), .unknown, none⟩
  obtain ⟨hspsr, helr⟩ := s.takeException_saves
    ⟨el, .sync, s.pc, some (esrWord ec iss), .unknown, none⟩
  change t = s.takeException _ at ht
  rw [← ht] at hel2 htge hhcr hspsr helr
  have level : t.el = el := by rw [ht]; rfl
  have untrapped : t.returnTrapped = false := by
    rw [State.returnTrapped, State.hcrBelow, hel2, hhcr, level]
    by_cases h : el = 1
    · cases he : s.el2Enabled
      · simp
      · simp [hnv h he]
    · simp [h]
  have legal : t.illegalReturn (packPState s.pstate) = false :=
    State.illegalReturn_pack hm (level ▸ hle) (fun h => hel2.trans (h2 h))
      (fun h => htge.trans (h1 h))
  have returns : exec .eret t = .next (t.exceptionReturn (t.get (elrOf t.el))) := by
    change execEret t = _
    rw [execEret, if_neg (level ▸ hel), if_neg (by simp [untrapped])]
  obtain rfl := Host.Outcome.next.inj (returns.symm.trans hu)
  rw [level, helr]
  refine ⟨?_, rfl, ?_, ?_, ?_, rfl⟩
  · rw [State.exceptionReturn_pstate, level, hspsr, State.returnPState, legal]
    exact unpack_packPState s.pstate
  · rw [State.exceptionReturn_x, ht, State.takeException_x]
  · rw [State.exceptionReturn_sp, ht, State.takeException_sp]
  · rw [State.exceptionReturn_mem, ht, State.takeException_mem]

/-! ESB (R310) -/

/-- The syndrome of an SError, from its parts. -/
theorem esrWord_serror (iss : BitVec 25) (due : Bool) :
    esrWord 0x2F (iss ||| (if due then 0x2000 else 0)) =
      0xBE000000 ||| iss.setWidth 64 ||| (if due then 0x2000 else 0) := by
  have head : (BitVec.ofNat 64 0x2F <<< 26) ||| flagAt true 25 = 0xBE000000#64 := by decide
  rw [esrWord, head, BitVec.setWidth_or, ← BitVec.or_assoc]
  cases due <;> rfl

/-- The deferred syndrome of an SError, from its parts. -/
theorem deferredWord_serror (iss : BitVec 25) (due : Bool) :
    deferredWord (iss ||| (if due then 0x2000 else 0)) =
      0x80000000 ||| iss.setWidth 64 ||| (if due then 0x2000 else 0) := by
  have head : flagAt true 31 = 0x80000000#64 := by decide
  rw [deferredWord, head, BitVec.setWidth_or, ← BitVec.or_assoc]
  cases due <;> rfl

/-- Whether a virtual SError is pending depends on two control registers and the level. -/
theorem State.isPending_vserror_congr {s t : State} (hh : t.hcr = s.hcr) (hs : t.scr = s.scr)
    (hel : t.el = s.el) : t.isPending .vserror = s.isPending .vserror := by
  unfold State.isPending State.virtEnabled State.hcrBelow State.tge State.el2Enabled State.nsBelow
  rw [hh, hs, hel]

/-- Deferring a physical SError. -/
theorem State.deferSError_some {s : State} {iss : BitVec 25} (h : s.irq.serror = some iss) :
    s.deferSError = s.consumed.put .disr_el1
      (deferredWord (iss ||| (if s.irq.due then 0x2000 else 0))) := by
  rw [State.deferSError, h]

theorem State.deferSError_none {s : State} (h : s.irq.serror = none) : s.deferSError = s := by
  rw [State.deferSError, h]

/-- With no virtual SError pending there is none to defer. -/
theorem State.deferVirtual_none {s : State} (h : s.isPending .vserror = false) :
    s.deferVirtual = s := by
  rw [State.deferVirtual, if_neg (by simp [h])]

/-- ESB with nothing to take. -/
theorem execEsb_of_defers {s : State} (hp : s.irq.serror = none ∨ s.takeable .serror = false)
    (hv : s.isPending .vserror = false) (h : s.hasNext) :
    execEsb s = .next ((s.advanced.deferSError.deferVirtual).record .errorSync) := by
  have physical : ¬ (s.isPending .serror && s.takeable .serror) = true := by
    rcases hp with hp | hp <;> simp [State.isPending, hp]
  rw [execEsb, if_neg physical, if_neg (by simp [hv]), State.advanceWith_next_of_hasNext _ h]

/-- Settles O12, by the three branches of ESB. -/
theorem esbTakesOrDefersSError : Obligations.EsbTakesOrDefersSError := by
  refine fun s => ⟨fun hnone hv h => ?_, fun iss hsome hmask hv h => ?_, fun iss hsome hok => ?_⟩
  · have still : s.advanced.isPending .vserror = false := hv
    refine ⟨_, execEsb_of_defers (.inl hnone) hv h, ?_⟩
    rw [State.deferSError_none (show s.advanced.irq.serror = none from hnone),
      State.deferVirtual_none still]
    exact ⟨rfl, ⟨fun _ _ => rfl, rfl, rfl, rfl, rfl⟩, rfl, rfl, rfl⟩
  · have deferred := State.deferSError_some (show s.advanced.irq.serror = some iss from hsome)
    have still : s.advanced.deferSError.isPending .vserror = false := by
      have other {q : SysReg} (hq : q ≠ .disr_el1) : s.advanced.deferSError.ctl q = s.ctl q :=
        deferred ▸ State.ctl_put_of_ne _ _ hq
      exact (State.isPending_vserror_congr (other (by decide)) (other (by decide))
        (deferred ▸ rfl)).trans hv
    refine ⟨_, execEsb_of_defers (.inr hmask) hv h, ?_⟩
    rw [State.deferVirtual_none still, deferred]
    refine ⟨rfl, ?_, fun q hq => ?_, rfl, rfl, rfl, rfl, rfl⟩
    · exact (State.get_put_self _ _ _).trans (deferredWord_serror iss s.irq.due)
    · exact (State.get_put _ _ _ _).trans (if_neg hq)
  · have taken : execEsb s = .next ((s.record .errorSync).takeAsync .serror s.esbReturn) := by
      rw [execEsb, if_pos (by simp [State.isPending, hsome, hok])]
    obtain ⟨hspsr, helr⟩ := (s.record .errorSync).consumed.takeException_saves
      ⟨s.asyncTarget .serror, .serror, s.esbReturn, some (esrWord 0x2F
        (s.irq.serror.getD 0 ||| (if s.irq.due then 0x2000 else 0))), .keep, none⟩
    refine ⟨_, taken, rfl, rfl, ?_, ?_, hspsr, rfl, State.takeException_x _ _,
      State.takeException_mem _ _⟩
    · rw [State.takeAsync]
      refine (State.takeException_esr _ _).trans ?_
      change esrWord 0x2F (s.irq.serror.getD 0 ||| (if s.irq.due then 0x2000 else 0)) = _
      rw [hsome]
      exact esrWord_serror iss s.irq.due
    · have back : s.esbReturn = s.pc ∨ s.esbReturn = s.pc + 4 := by
        unfold State.esbReturn
        split <;> simp
      exact back.imp helr.trans helr.trans

end Sys2Proof.Machine
end

section
/-! Proofs of the statements about calls, returns and exception returns (R346 to R357), and about
the general SYS (R314). -/

namespace Sys2Proof.Machine

/-- An authentication that gives a pointer. -/
theorem State.withAuth_some {s : State} {keyB : Bool} {p modifier target : Word}
    (h : s.authI keyB p modifier = some target) (go : Word → Out) :
    s.withAuth keyB p modifier go = go target := by
  rw [State.withAuth, h]

/-- An authentication that raises the fault. -/
theorem State.withAuth_none {s : State} {keyB : Bool} {p modifier : Word}
    (h : s.authI keyB p modifier = none) (go : Word → Out) :
    s.withAuth keyB p modifier go = .next (s.authFault keyB) := by
  rw [State.withAuth, h]

/-! Calls -/

/-- What a call leaves. -/
theorem State.call_leaves {s : State} (h : s.hasNext) (target : Word) (btype : BitVec 2) :
    ∃ t, s.call target btype = .next t ∧ t.pc = target ∧ t.xr 30 = s.pc + 4 ∧
      t.returnStack = ⟨s.pc + 4, .a64⟩ :: s.returnStack ∧ KeepsRegs s t [30] btype ∧
      t.mem = s.mem ∧ t.monitor = s.monitor := by
  have reads (q : Reg) : (((s.setX 30 (s.pc + 4)).pushReturn (s.pc + 4)).branchTo target btype).xr q
      = if q = 30 ∧ (30 : Reg) ≠ 31 then s.pc + 4 else s.xr q :=
    (State.xr_congr (by simp) q).trans (s.xr_setX 30 q (s.pc + 4))
  refine ⟨_, s.call_eq target btype h, rfl, (reads 30).trans (if_pos (by decide)), ?_,
    ⟨fun q hq => (reads q).trans (if_neg (by simpa using hq)), ?_, ?_, ?_, ?_⟩, ?_, ?_⟩ <;> simp

/-- Settles O26: every call form is `State.call` at its target. -/
theorem callsLinkAndBranch : Obligations.CallsLinkAndBranch := by
  intro s imm26 rn rm target btype i h hi
  have calls : exec i s = s.call target btype := by
    rcases hi with ⟨rfl, rfl, rfl⟩ | ⟨rfl, rfl, rfl⟩ | ⟨rfl, ha, rfl⟩ | ⟨rfl, ha, rfl⟩ |
      ⟨rfl, rfl, ha⟩ | ⟨rfl, rfl, ha⟩
    · rfl
    · rfl
    all_goals exact State.withAuth_some ha _
  exact calls ▸ State.call_leaves h target btype

/-! Returns -/

/-- Settles O29: every return form is `State.return` to its target. -/
theorem returnsPopAndBranch : Obligations.ReturnsPopAndBranch := by
  intro s rn target i hi
  have returns : exec i s = s.return target := by
    rcases hi with ⟨rfl, rfl⟩ | ⟨rfl, ha⟩ | ⟨rfl, ha⟩
    · rfl
    all_goals exact State.withAuth_some ha _
  refine ⟨_, returns, rfl, ?_, ⟨fun q _ => State.xr_congr ?_ q, ?_, ?_, ?_, ?_⟩, ?_, ?_⟩ <;> simp

/-! Exception returns -/

/-- An exception return at EL0 is UNDEFINED. -/
theorem exec_eret_of_el0 {s : State} (h : s.el = 0) {i : Instr}
    (hi : i = .eret ∨ i = .eretaa ∨ i = .eretab) : exec i s = .next s.undefined := by
  rcases hi with rfl | rfl | rfl <;> exact if_pos h

/-- An exception return under nested virtualisation is trapped. -/
theorem exec_eret_of_trapped {s : State} (h : s.el ≠ 0) (ht : s.returnTrapped = true) {i : Instr}
    {iss : BitVec 25} (hi : (i = .eret ∧ iss = 0) ∨ (i = .eretaa ∧ iss = 2) ∨
      (i = .eretab ∧ iss = 3)) : exec i s = .next (s.returnTrap iss) := by
  rcases hi with ⟨rfl, rfl⟩ | ⟨rfl, rfl⟩ | ⟨rfl, rfl⟩ <;>
    exact (if_neg h).trans (if_pos ht)

/-- An exception return that neither is UNDEFINED nor trapped. -/
theorem exec_eret_of_returns {s : State} (h : s.el ≠ 0) (ht : s.returnTrapped = false) {i : Instr}
    {target : Word} (hi : (i = .eret ∧ target = s.get (elrOf s.el)) ∨
      (i = .eretaa ∧ s.authI false (s.get (elrOf s.el)) s.spCur = some target) ∨
      (i = .eretab ∧ s.authI true (s.get (elrOf s.el)) s.spCur = some target)) :
    exec i s = .next (s.exceptionReturn target) := by
  have untrapped : ¬ s.returnTrapped = true := by simp [ht]
  rcases hi with ⟨rfl, rfl⟩ | ⟨rfl, ha⟩ | ⟨rfl, ha⟩
  · exact (if_neg h).trans (if_neg untrapped)
  all_goals exact (if_neg h).trans ((if_neg untrapped).trans (State.withAuth_some ha _))

/-- The control of nested virtualisation traps at EL1 alone. -/
theorem State.returnTrapped_iff {s : State} : s.returnTrapped = true ↔
    s.el = 1 ∧ s.el2Enabled = true ∧ bit s.hcr 42 = true := by
  unfold State.returnTrapped State.hcrBelow
  constructor
  · simp +contextual
  · rintro ⟨h1, h2, h3⟩
    simp [h1, h2, h3]

/-- Whether a return is illegal, as a proposition. -/
theorem State.illegalReturn_iff (s : State) {w : Word} {tgt : Nat} (h : tgt = field w 2 2) :
    s.illegalReturn w = true ↔ s.el.val < tgt ∨ bit w 4 = true ∨ bit w 1 = true ∨
      (tgt = 0 ∧ bit w 0 = true) ∨ (tgt = 2 ∧ s.el2Enabled = false) ∨
      (tgt = 1 ∧ s.tge = true) := by
  have small : tgt < 4 := by
    rw [h, field]
    exact Nat.mod_lt _ (by decide)
  have val : (Fin.ofNat 4 tgt).val = tgt := Nat.mod_eq_of_lt small
  rw [State.illegalReturn, ← h]
  simp only [Bool.or_eq_true, Bool.and_eq_true, decide_eq_true_eq, beq_iff_eq, Fin.lt_def,
    Fin.ext_iff, val, Bool.not_eq_true', or_assoc]
  rfl

/-- Settles O30, by the branches of an exception return. -/
theorem exceptionReturnRestoresState : Obligations.ExceptionReturnRestoresState := by
  refine fun s target i => ⟨fun h0 hi => ?_, fun iss h1 h2 h3 hi => ?_, fun h0 hnv hi => ?_⟩
  · exact ⟨_, exec_eret_of_el0 h0 hi, s.undefined_took⟩
  · have trapped : s.returnTrapped = true := State.returnTrapped_iff.2 ⟨h1, h2, h3⟩
    have above : s.el ≠ 0 := by rw [h1]; decide
    rcases hi with ⟨rfl, rfl⟩ | ⟨rfl, rfl⟩ | ⟨rfl, rfl⟩
    · exact ⟨_, exec_eret_of_trapped above trapped (.inl ⟨rfl, rfl⟩), s.takeSync_took 2 (by decide)⟩
    · exact ⟨_, exec_eret_of_trapped above trapped (.inr (.inl ⟨rfl, rfl⟩)),
        s.takeSync_took 2 (by decide)⟩
    · exact ⟨_, exec_eret_of_trapped above trapped (.inr (.inr ⟨rfl, rfl⟩)),
        s.takeSync_took 2 (by decide)⟩
  · have untrapped : s.returnTrapped = false := by
      rw [← Bool.not_eq_true, State.returnTrapped_iff]
      rintro ⟨h1, h2, h3⟩
      simp [hnv h1 h2] at h3
    refine ⟨_, exec_eret_of_returns h0 untrapped hi, rfl, rfl, by simp, by simp, by simp, by simp,
      by simp, by simp, fun r => ?_, fun w tgt hw htgt => ?_⟩
    · rw [State.ctl_of_synced (State.exceptionReturn_unsynced s target)]
      exact State.get_congr (State.exceptionReturn_sys s target) r
    · rw [State.exceptionReturn_pstate, ← hw]
      split
      · next illegal => exact if_pos ((s.illegalReturn_iff htgt).2 illegal)
      · next legal => exact if_neg fun illegal => legal ((s.illegalReturn_iff htgt).1 illegal)

/-! Failed authentications (R356) -/

/-- Settles O28: each form raises the fault of its authentication. -/
theorem authenticationFaultTaken : Obligations.AuthenticationFaultTaken := by
  intro s rn rm keyB i hi
  have faults : exec i s = .next (s.authFault keyB) := by
    rcases hi with ⟨rfl, ha⟩ | ⟨rfl, ha⟩ | ⟨rfl, ha⟩ | ⟨rfl, h0, ht, ha⟩
    case inr.inr.inr =>
      have untrapped : ¬ s.returnTrapped = true := by simp [ht]
      cases keyB <;>
        exact (if_neg h0).trans ((if_neg untrapped).trans (State.withAuth_none ha _))
    all_goals cases keyB <;> exact State.withAuth_none ha _
  refine ⟨_, faults, s.takeSync_took _ ?_, State.takeSync_returnStack _ _ _ _⟩
  cases keyB <;> decide

/-- Settles O20: the general form is refused, and is decoded from its word. -/
theorem sysOutsideNamedOperations : Obligations.SysOutsideNamedOperations :=
  fun op1 crn crm op2 rt _ =>
    ⟨rfl, everyWellFormedInstructionDecodes (.sys op1 crn crm op2 rt)⟩

end Sys2Proof.Machine
end

section
/-! Proofs of the statements about a step and its fetch (R40, R192, R455, R469). -/

namespace Sys2Proof.Machine

/-! The fetch -/

/-- What a fetch that gives a word leaves of the state. -/
theorem State.fetch_keeps {s s1 : State} {m : Mapped} {w : Ins} (h : s.fetch = .word s1 m w) :
    s1.x = s.x ∧ s1.sp = s.sp ∧ s1.pc = s.pc ∧ s1.pstate = s.pstate ∧ s1.sys = s.sys ∧
      s1.vec = s.vec ∧ s1.monitor = s.monitor ∧ s1.syncTarget = s.syncTarget := by
  obtain ⟨s0, hx, rfl, -⟩ := State.fetch_word h
  have same := (State.translate_same hx).trans (s0.showPbha_same s.pc m)
  exact ⟨same.x, same.sp, same.pc, same.pstate, same.sys, same.vec, same.monitor, same.syncTarget⟩

/-- A step that runs an instruction is the core's, after the counters. -/
theorem RunsNext.step_eq {s : State} (h : RunsNext s) : step s = s.tick.runInstruction := h.runs

/-- Settles O4, from the parts of a step in their order. -/
theorem stepRunsDecodedInstruction : Obligations.StepRunsDecodedInstruction := by
  intro s s1 m w i hs hf hp hd
  have runs : step s = exec i s1.stepConsumed := by
    rw [hs.step_eq, State.runInstruction, hf]
    dsimp only
    rw [hp, State.execWord, hd]
  obtain ⟨hx, hsp, hpc, hps, hsys, hvec, hmon, -⟩ := State.fetch_keeps hf
  exact ⟨runs, hx.trans s.tick_x, hsp.trans s.tick_sp, hpc.trans s.tick_pc, hps.trans s.tick_pstate,
    hsys, hvec.trans s.tick_vec, hmon.trans s.tick_monitor⟩

/-- The instruction word at a key, byte by byte (R262). -/
theorem Memory.readWord_bytes (m : List Host.Cell) (a : Nat) : Memory.readWord m a =
    Memory.read m (a + 3) ++ Memory.read m (a + 2) ++ Memory.read m (a + 1) ++ Memory.read m a := by
  refine BitVec.eq_of_getLsbD_eq fun i hi => ?_
  rw [Memory.readWord, BitVec.getLsbD_setWidth, Memory.getLsbD_readLE _ _ _ _ (by omega)]
  simp only [BitVec.getLsbD_append]
  interval_cases i <;> simp

/-- An address aligned to four bytes. -/
theorem extract_low2 {w : Word} (h : w.toNat % 4 = 0) : w.extractLsb' 0 2 = 0 := by
  apply BitVec.eq_of_toNat_eq
  simpa [BitVec.extractLsb'_toNat] using h

/-- With no older word and no data below a dirty line, a fetch sees the word of memory alone. -/
theorem State.fetchWord_of_clean {s : State} {m : Mapped}
    (hold : ∀ w ∈ s.cache.old, w.key ≠ mappedKey m)
    (hdirty : s.cache.dirtyBelow (blockOf (mappedKey m)) = none) :
    s.fetchWord m = Memory.readWord s.mem (mappedKey m) := by
  have none : s.cache.old.filter (fun w => w.key == mappedKey m &&
      (w.held || (w.below && s.fetchUncached m))) = [] := by
    rw [List.filter_eq_nil_iff]
    intro w hw
    simp [hold w hw]
  have others : s.otherWords m = [] := by
    unfold State.otherWords
    dsimp only
    rw [hdirty, none]
    cases s.fetchUncached m <;> rfl
  rw [State.fetchWord, others]
  rfl

/-- Settles O5, by the checks of the fetch in their order. -/
theorem fetchReadsInstructionBytes : Obligations.FetchReadsInstructionBytes := by
  intro s s1 m hpc hx hp
  have aligned : ¬ (s.pc.extractLsb' 0 2 != 0) = true := by simp [extract_low2 hpc]
  refine ⟨fun hdev => ?_, fun hdev halias hbus hold hdirty => ?_⟩
  · rw [State.fetch, if_neg aligned, hx]
    dsimp only
    rw [hp]
    exact if_pos hdev
  · have word : s.fetch = .word { s1.showPbha s.pc m with cache := s1.fetchCaches m } m
        (s1.fetchWord m) := by
      rw [State.fetch, if_neg aligned, hx]
      dsimp only
      rw [hp]
      dsimp only
      rw [if_neg (by simp [hdev]), if_neg (by simp [halias]), if_neg (by simp [hbus])]
    obtain ⟨kx, -, kpc, kps, ksys, -⟩ := State.fetch_keeps word
    refine ⟨_, word.trans (congrArg _ ?_), rfl, kx, kpc, kps, ksys⟩
    rw [State.fetchWord_of_clean hold hdirty, Memory.readWord_bytes]

/-- Settles O48: the alignment check comes before the translation, the Illegal state check after the
fetch. -/
theorem pcAlignmentAndIllegalState : Obligations.PcAlignmentAndIllegalState := by
  refine fun s hs => ⟨fun hpc => ?_, fun s1 m w hf hb hil => ?_⟩
  · have misaligned : (s.tick.pc.extractLsb' 0 2 != 0) = true := by
      rw [bne_iff_ne]
      intro h
      have := congrArg BitVec.toNat h
      rw [BitVec.extractLsb'_toNat, s.tick_pc] at this
      exact hpc (by simpa using this)
    have faults : step s = .next s.tick.pcAlignmentFault := by
      rw [hs.step_eq, State.runInstruction, State.fetch, if_pos misaligned]
    have syndrome : esrWord 0x22 0 = 0x8A000000 := by decide
    refine ⟨_, faults, syndrome ▸ TookSync.of_entry _ _ _ _ _, ?_⟩
    exact (takeException_far _ _ _ _ _ _ _).trans s.tick_pc
  · obtain ⟨hx, hsp, hpc, hps, -, -, -, htgt⟩ := State.fetch_keeps hf
    have illegal : s1.pstate.il = true := by rw [hps, s.tick_pstate, hil]
    have faults : step s = .next (s1.takeSync s1.syncTarget 0x0E 0) := by
      rw [hs.step_eq, State.runInstruction, hf]
      dsimp only
      rw [State.preExecute, if_neg (by simp [hb]), if_pos illegal]
    have took : TookSync s1 (s1.takeSync s1.syncTarget 0x0E 0) s1.syncTarget 0x3A000000 :=
      s1.takeSync_took _ (by decide)
    refine ⟨_, faults, htgt ▸ took, ?_, ?_, ?_, rfl⟩
    · exact took.general.trans (hx.trans s.tick_x)
    · exact took.pointers.trans (hsp.trans s.tick_sp)
    · exact htgt ▸ took.ret.trans (hpc.trans s.tick_pc)

end Sys2Proof.Machine
end

section
/-! Proofs of the statements about asynchronous exceptions and about the wake-up from WFI (R307,
R466 to R477). -/

namespace Sys2Proof.Machine

/-! A control register changed by hardware (R620) -/

/-- The old values of a register that a unit changes are changed as the register is. -/
theorem State.olds_putByUnit_self (s : State) (r : SysReg) (f : Word → Word) :
    (s.putByUnit r f).olds r = (s.olds r).map f := by
  unfold State.olds State.putByUnit
  induction s.unsynced with
  | nil => rfl
  | cons u l ih => by_cases h : u.reg = r <;> simp_all

/-- The old values of another register stay. -/
theorem State.olds_putByUnit_of_ne (s : State) {r q : SysReg} (f : Word → Word) (h : q ≠ r) :
    (s.putByUnit r f).olds q = s.olds q := by
  unfold State.olds State.putByUnit
  induction s.unsynced with
  | nil => rfl
  | cons u l ih =>
    by_cases hr : u.reg = r
    · have hq : ¬ u.reg = q := fun e => h (e ▸ hr)
      simp_all
    · by_cases hq : u.reg = q <;> simp_all

/-- A choice among the images of values is the image of the choice. -/
theorem State.choose_map {α β : Type} (s : State) (k : FreeKind) (i : Nat) (f : α → β) (a : α)
    (l : List α) : s.choose k i (f a) (l.map f) = f (s.choose k i a l) := by
  cases l with
  | nil => rfl
  | cons b l =>
    change (List.map f (a :: b :: l)).getD _ (f a) = f ((a :: b :: l).getD _ a)
    rw [List.length_map, List.getD_map]

/-- What a control register is seen as, after a unit has changed it. -/
theorem State.ctl_putByUnit_self (s : State) (r : SysReg) (f : Word → Word) :
    (s.putByUnit r f).ctl r = f (s.ctl r) := by
  unfold State.ctl
  rw [State.olds_putByUnit_self, State.get_putByUnit, if_pos rfl]
  exact s.choose_map .hazard r.idx.val f (s.get r) (s.olds r)

theorem State.ctl_putByUnit_of_ne (s : State) {r q : SysReg} (f : Word → Word) (h : q ≠ r) :
    (s.putByUnit r f).ctl q = s.ctl q := by
  unfold State.ctl
  rw [State.olds_putByUnit_of_ne s f h, State.get_putByUnit, if_neg h]
  rfl

/-- Another bit of a word after one bit is written. -/
theorem bit_withBit_of_ne (w : Word) {i j : Nat} (b : Bool) (h : j ≠ i) :
    bit (withBit w i b) j = bit w j := by
  unfold bit withBit
  by_cases hj : j < 64
  · have other : (1#64 <<< i).getLsbD j = false := by
      simp only [BitVec.getLsbD_shiftLeft, BitVec.getLsbD_one]
      by_cases hl : j < i
      · simp [hl]
      · simp [show j - i ≠ 0 by omega]
    cases b with
    | false =>
      simp only [Bool.false_eq_true, if_false, BitVec.getLsbD_and, BitVec.getLsbD_not, other, hj]
      simp
    | true => simp only [if_true, BitVec.getLsbD_or, other, Bool.or_false]
  · rw [BitVec.getLsbD_of_ge _ _ (by omega), BitVec.getLsbD_of_ge _ _ (by omega)]

/-! A virtual SError (R461) -/

theorem State.clearVse_ctl (s : State) {q : SysReg} (h : q ≠ .hcr_el2) :
    s.clearVse.ctl q = s.ctl q := s.ctl_putByUnit_of_ne _ h

/-- Another bit of `HCR_EL2` after `VSE` is cleared. -/
theorem State.clearVse_hcr (s : State) {i : Nat} (h : i ≠ 8) :
    bit s.clearVse.hcr i = bit s.hcr i := by
  rw [State.hcr, State.clearVse, State.ctl_putByUnit_self]
  exact bit_withBit_of_ne _ _ h

/-- Clearing `VSE` changes nothing that an exception entry reads. -/
theorem State.clearVse_entry (s : State) (el : EL) (c : VectorColumn) :
    s.clearVse.vectorAddress el c = s.vectorAddress el c ∧
      s.clearVse.handlerPState el = s.handlerPState el := by
  have vbar : ∀ l : EL, vbarOf l ≠ .hcr_el2 := by decide
  have sctlr : ∀ l : EL, sctlrOf l ≠ .hcr_el2 := by decide
  have scr : s.clearVse.scr = s.scr := s.clearVse_ctl (by decide)
  have el2 : s.clearVse.el2Enabled = s.el2Enabled := by
    rw [State.el2Enabled, State.nsBelow, scr]
    rfl
  have e2h : s.clearVse.e2h = s.e2h := by rw [State.e2h, el2, s.clearVse_hcr (by decide)]; rfl
  have tge : s.clearVse.tge = s.tge := by rw [State.tge, el2, s.clearVse_hcr (by decide)]; rfl
  constructor
  · rw [State.vectorAddress, s.clearVse_ctl (vbar el)]
    rfl
  · rw [State.handlerPState, s.clearVse_ctl (sctlr el), e2h, tge]
    rfl

/-- The syndrome of a virtual SError, from the bits of `VSESR_EL2`. -/
theorem esrWord_vserror (w : Word) :
    esrWord 0x2F (w.setWidth 25) = 0xBE000000 ||| (w &&& 0x1FFFFFF) := by
  have head : (BitVec.ofNat 64 0x2F <<< 26) ||| flagAt true 25 = 0xBE000000#64 := by decide
  have low : (w.setWidth 25).setWidth 64 = w &&& 0x1FFFFFF#64 := by
    refine BitVec.eq_of_getLsbD_eq fun i hi => ?_
    have mask : (0x1FFFFFF#64).getLsbD i = decide (i < 25) := by interval_cases i <;> rfl
    simp only [BitVec.getLsbD_setWidth, BitVec.getLsbD_and, mask, hi, decide_true, Bool.true_and]
    exact Bool.and_comm _ _
  rw [esrWord, head, low]
  rfl

/-! What is pending -/

/-- With the CPU interface disabled the pins are what is pending (R470). -/
theorem State.isPending_pins {s : State} (h : s.gicDisabled = true) :
    s.isPending .irq = s.irq.irq ∧ s.isPending .fiq = s.irq.fiq := by
  simp [State.isPending, State.physIrq, State.physFiq, h]

/-- A single interrupt of the CPU interface is signalled by its group (R503). -/
theorem State.isPending_interface {s : State} {g : GicInt} (h : s.gicDisabled = false)
    (hp : s.gic.pending = [g]) (hs : s.sufficient g = true) :
    s.isPending .fiq = s.asFiq g.group ∧ s.isPending .irq = !s.asFiq g.group := by
  have signal : s.gicSignal = some g := by
    rw [State.gicSignal, hp, List.filter_cons, if_pos hs]
    rfl
  simp [State.isPending, State.physIrq, State.physFiq, h, signal]

/-- One takeable exception pending, which nothing delays, is all that can be taken. -/
theorem State.takeableNow_single {s : State} {k : AsyncKind} (hp : s.isPending k = true)
    (ht : s.takeable k = true) (only : ∀ j, s.isPending j = true → j = k)
    (hd : k = .serror → s.irq.due = true) : s.takeableNow = [k] := by
  have same : ∀ j ∈ allAsync, (s.isPending j && s.takeable j &&
      !(j == .serror && !s.irq.due && s.drawBool .serrorDelay 0)) = (j == k) := by
    intro j _
    by_cases hj : j = k
    · subst hj
      by_cases hk : j = .serror
      · simp [hp, ht, hd hk]
      · simp [hp, ht, hk]
    · have : s.isPending j = false := by
        rw [← Bool.not_eq_true]
        exact fun h => hj (only j h)
      simp [this, hj]
  rw [State.takeableNow, List.filter_congr same]
  cases k <;> rfl

/-- A running core with one exception to take takes it. -/
theorem State.run_takes {s : State} {k : AsyncKind} (hon : s.power = .on)
    (hb : s.throttle.dispatchBlock = false) (hh : s.dbg.halted = false)
    (hr : s.dbg.request = false) (he : s.bigEndian = false) (hn : s.resetRequested = false)
    (ha : s.asleep = false) (ht : s.takeableNow = [k]) : s.run = .next (s.takeAsync k s.pc) := by
  have awake : s.run = s.runAwake := by
    simp [State.run, hon, hb, hh, he, hn, ha, State.haltPending, hr]
  rw [awake, State.runAwake, ht]
  rfl

/-- What an asynchronous exception leaves, by its kind. -/
def VectorColumn.ofAsync (k : AsyncKind) : VectorColumn :=
  match k with
  | .irq | .virq => .irq
  | .fiq | .vfiq => .fiq
  | .serror | .vserror => .serror

/-- What every asynchronous exception saves and leaves (R464). -/
theorem State.takeAsync_took (s : State) (k : AsyncKind) (ret : Word) :
    (s.takeAsync k ret).pc = s.vectorAddress (s.asyncTarget k) (.ofAsync k) ∧
      (s.takeAsync k ret).get (elrOf (s.asyncTarget k)) = ret ∧
      (s.takeAsync k ret).get (spsrOf (s.asyncTarget k)) = packPState s.pstate ∧
      (s.takeAsync k ret).pstate = s.handlerPState (s.asyncTarget k) ∧
      (s.takeAsync k ret).x = s.x ∧ (s.takeAsync k ret).sp = s.sp ∧
      (s.takeAsync k ret).mem = s.mem := by
  have saves (u : State) (e : Entry) := u.takeException_saves e
  cases k with
  | irq | fiq | virq | vfiq =>
    exact ⟨rfl, (saves _ _).2, (saves _ _).1, rfl, State.takeException_x _ _,
      State.takeException_sp _ _, State.takeException_mem _ _⟩
  | serror =>
    exact ⟨rfl, (saves _ _).2, (saves s.consumed _).1, rfl, State.takeException_x _ _,
      State.takeException_sp _ _, State.takeException_mem _ _⟩
  | vserror =>
    obtain ⟨vector, handler⟩ := s.clearVse_entry (s.asyncTarget .vserror) .serror
    exact ⟨vector, (saves _ _).2, (saves s.clearVse _).1, handler, State.takeException_x _ _,
      State.takeException_sp _ _, State.takeException_mem _ _⟩

/-- An interrupt writes no syndrome. -/
theorem State.takeAsync_esr (s : State) {k : AsyncKind} (ret : Word) (h1 : k ≠ .serror)
    (h2 : k ≠ .vserror) : (s.takeAsync k ret).get (esrOf (s.asyncTarget k)) =
      s.get (esrOf (s.asyncTarget k)) := by
  cases k with
  | irq | fiq | virq | vfiq => exact State.takeException_esr _ _
  | serror => exact absurd rfl h1
  | vserror => exact absurd rfl h2

/-- The exception registers are none that counts on its own. -/
theorem counted_esrOf : ∀ l : EL, counted (esrOf l) = false := by decide

/-- Settles O6: one exception is pending and takeable, so it is the one of the choice. -/
theorem pendingAsyncExceptionIsTaken : Obligations.PendingAsyncExceptionIsTaken := by
  intro s hi hon hb hh hr he hn ha
  refine ⟨fun hg => ?_, fun g hg hp hs => ?_, fun k el hp ht only hd hel => ?_⟩
  · obtain ⟨hirq, hfiq⟩ := State.isPending_pins (s := s.tick) (by rw [s.tick_gicDisabled, hg])
    rw [hirq, hfiq, s.tick_irq]
    exact ⟨rfl, rfl⟩
  · exact State.isPending_interface (by rw [s.tick_gicDisabled, hg]) (by rw [s.tick_gic, hp]) hs
  · have asleep : s.tick.asleep = false := by rw [State.asleep, s.tick_sleep]; exact ha
    have due : k = .serror → s.tick.irq.due = true := fun h => by rw [s.tick_irq]; exact hd h
    have taken : step s = .next (s.tick.takeAsync k s.tick.pc) := by
      rw [step_of_no_event hi]
      exact State.run_takes (by rw [s.tick_power, hon]) (by rw [s.tick_throttle, hb])
        (by rw [s.tick_debug, hh]) (by rw [s.tick_debug, hr]) he hn asleep
        (State.takeableNow_single hp ht only due)
    obtain ⟨hpc, helr, hspsr, hps, hx, hsp, hmem⟩ := s.tick.takeAsync_took k s.tick.pc
    subst hel
    refine ⟨_, taken, hpc.trans (by cases k <;> rfl), helr.trans s.tick_pc,
      hspsr.trans (by rw [s.tick_pstate]), hps, hx.trans s.tick_x, hsp.trans s.tick_sp,
      hmem.trans s.tick_mem, ?_, fun h1 h2 => ?_, fun iss hk his => ?_, fun hk => ?_⟩
    · rintro (rfl | rfl | rfl) <;> rfl
    · exact (State.takeAsync_esr _ _ h1 h2).trans (s.tick_get _ (counted_esrOf _))
    · subst hk
      refine ⟨rfl, (State.takeException_esr _ _).trans ?_⟩
      change esrWord 0x2F (s.tick.irq.serror.getD 0 ||| (if s.tick.irq.due then 0x2000 else 0)) = _
      rw [his, due rfl]
      refine (esrWord_serror iss true).trans ?_
      rw [BitVec.or_assoc, BitVec.or_comm (iss.setWidth 64), ← BitVec.or_assoc]
      rfl
    · subst hk
      have apart : ∀ l : EL, SysReg.hcr_el2 ≠ spsrOf l ∧ SysReg.hcr_el2 ≠ elrOf l ∧
          SysReg.hcr_el2 ≠ esrOf l ∧ SysReg.hcr_el2 ≠ farOf l := by decide
      obtain ⟨h1, h2, h3, h4⟩ := apart (s.tick.asyncTarget .vserror)
      refine ⟨?_, (State.takeException_esr _ _).trans (esrWord_vserror _)⟩
      have kept : (s.tick.takeAsync .vserror s.tick.pc).get .hcr_el2 =
          withBit (s.tick.get .hcr_el2) 8 false :=
        (State.takeException_get_of_ne _ _ h1 h2 h3 h4 (by decide)).trans
          ((State.get_putByUnit _ _ _ _).trans (if_pos rfl))
      rw [kept, bit_withBit _ _ _ (by decide)]

/-! Waking from WFI (R304, R307) -/

/-- A core asleep that may run does what a sleeping core does. -/
theorem State.run_of_asleep {s : State} (hon : s.power = .on ∨ s.power = .fullRetention)
    (hb : s.throttle.dispatchBlock = false) (hh : s.dbg.halted = false) (he : s.bigEndian = false)
    (hn : s.resetRequested = false) (ha : s.asleep = true) : s.run = s.runAsleep := by
  rcases hon with h | h <;> simp [State.run, h, hb, hh, he, hn, ha]

/-- What wakes a core from WFI. -/
theorem State.wfiWakes_of {s : State} (h : s.physIrq = true ∨ s.physFiq = true ∨
    s.irq.serror.isSome = true ∨ (s.dbg.request = true ∧ s.haltingAllowed = true)) :
    s.wfiWakes = true := by
  unfold State.wfiWakes State.haltPending allAsync
  rcases h with h | h | h | ⟨h1, h2⟩ <;> simp [State.isPending, *]

/-- Settles O7: the sleeping core wakes exactly where WFI has not masked the wake-up events. -/
theorem wfiWakesUnlessPowerdown : Obligations.WfiWakesUnlessPowerdown := by
  intro s hi hon hb hh he hn hl
  have asleep : s.tick.asleep = true := by
    rw [State.asleep, s.tick_sleep, hl]
    rfl
  have runs : step s = s.tick.runAsleep := by
    rw [step_of_no_event hi]
    exact State.run_of_asleep (by rw [s.tick_power]; exact hon) (by rw [s.tick_throttle, hb])
      (by rw [s.tick_debug, hh]) he hn asleep
  refine ⟨fun hm hw h => ?_, fun hm => ?_⟩
  · have halting : s.tick.haltingAllowed = s.haltingAllowed := by
      rw [State.haltingAllowed, s.tick_debug, s.tick_cfg, s.tick_osLock]
      rfl
    have wakes : s.tick.wakes = true := by
      rw [State.wakes, s.tick_sleep, hm, hl]
      rw [← halting, ← s.tick_debug] at hw
      simp [State.wfiWakes_of hw]
    have next : s.tick.hasNext := by rw [State.hasNext, s.tick_pc]; exact h
    rw [State.runAsleep, if_pos wakes] at runs
    refine ⟨_, runs.trans (State.advanceWith_next_of_hasNext _ next), rfl, rfl, ?_,
      ⟨fun _ _ => rfl, rfl, rfl, rfl, rfl⟩, s.tick_mem, rfl, s.tick_debug⟩
    exact congrArg (· + 4) s.tick_pc
  · have stays : ¬ s.tick.wakes = true := by simp [State.wakes, hm]
    rw [State.runAsleep, if_neg stays] at runs
    split at runs <;>
      exact ⟨_, runs, s.tick_sleep, s.tick_pc, ⟨fun _ _ => rfl, rfl, by rw [← s.tick_pstate], rfl,
        rfl⟩, s.tick_mem, rfl, s.tick_debug⟩

end Sys2Proof.Machine
end

section
/-! Facts about single system registers: which group each is of, and what a read and a write of it
do (R315, R316). -/

namespace Sys2Proof.Machine

/-- A property of every system register, from its place. -/
theorem SysReg.forall_of_places {p : SysReg → Prop} (h : ∀ i, p (sysRegAt i)) (r : SysReg) : p r :=
  sysRegAt_idx r ▸ h r.idx

/-- The direct-access data registers are the twelve. -/
theorem mem_ramDataRegs_of_group (r : SysReg) (h : r.info.group = .ramData) :
    r ∈ ramDataRegs.map (·.1) :=
  SysReg.forall_of_places (p := fun r => r.info.group = .ramData → r ∈ ramDataRegs.map (·.1))
    (by decide +kernel) r h

/-- No register of the Activity Monitors is a counter of the PMU. -/
theorem numberIn_of_amu (r : SysReg) (h : r.info.group = .amu) :
    numberIn pmevcntrs r = none ∧ numberIn pmevtypers r = none :=
  SysReg.forall_of_places (p := fun r => r.info.group = .amu → numberIn pmevcntrs r = none ∧
    numberIn pmevtypers r = none) (by decide +kernel) r h

/-- A storing register gives back what it holds. -/
theorem State.readSys_stored (s : State) {r : SysReg} (h : r ∈ storedRegs) :
    s.readSys r = s.get r := by
  unfold storedRegs at h
  fin_cases h <;> rfl

/-- A direct-access data register gives back what it holds. -/
theorem State.readSys_ramData (s : State) {r : SysReg} (h : r.info.group = .ramData) :
    s.readSys r = s.get r := by
  have hr := mem_ramDataRegs_of_group r h
  simp only [ramDataRegs, List.map_cons, List.map_nil] at hr
  fin_cases hr <;> rfl

/-- A storing register takes the whole of what is written. -/
theorem State.writeSys_stored (s : State) {r : SysReg} (w : Word) (h : r ∈ storedRegs) :
    s.writeSys r w = s.putControl r w := by
  unfold storedRegs at h
  fin_cases h <;> rfl

/-- A vector base takes what is written, its low 11 bits 0 (R465). -/
theorem State.writeSys_vbar (s : State) {r : SysReg} (w : Word)
    (h : r = .vbar_el1 ∨ r = .vbar_el2 ∨ r = .vbar_el3) :
    s.writeSys r w = s.putControl r (w &&& ~~~0x7FF#64) := by
  rcases h with rfl | rfl | rfl <;> rfl

/-- Reading a system register after one is written. -/
theorem State.get_putControl (s : State) (r q : SysReg) (v : Word) :
    (s.putControl r v).get q = if q = r then v else s.get q := s.get_put r q v

/-- The values that may still be seen of a register that is written. -/
theorem State.olds_putControl (s : State) (r : SysReg) (v : Word) :
    ∀ w ∈ (s.putControl r v).olds r, w = s.get r ∨ w ∈ s.olds r := by
  unfold State.olds State.putControl State.putThrough
  dsimp only
  split
  · exact fun w hw => .inr hw
  · intro w hw
    simpa using hw

end Sys2Proof.Machine
end

section
/-! Proofs of the statements about MRS and MSR (R315 to R318, R452, R457, R500, R541). -/

namespace Sys2Proof.Machine

/-! PSTATE after a write of another register -/

@[simp] theorem State.putControl_pstate (s : State) (r : SysReg) (v : Word) :
    (s.putControl r v).pstate = s.pstate := rfl

@[simp] theorem State.putThrough_pstate (s : State) (r : SysReg) (via : Option SysReg) (v : Word) :
    (s.putThrough r via v).pstate = s.pstate := rfl

@[simp] theorem State.virtDeactivate_pstate (s : State) (r : SysReg) :
    (s.virtDeactivate r).pstate = s.pstate := by
  unfold State.virtDeactivate
  dsimp only
  split <;> rfl

@[simp] theorem State.virtEnd_pstate (s : State) (g0 : Bool) (w : Word) :
    (s.virtEnd g0 w).pstate = s.pstate := by
  unfold State.virtEnd
  dsimp only
  split
  · rfl
  · split
    · exact State.virtDeactivate_pstate _ _
    · rfl

@[simp] theorem State.writeVirtual_pstate (s : State) (r : SysReg) (w : Word) :
    (s.writeVirtual r w).pstate = s.pstate := by
  unfold State.writeVirtual
  dsimp only
  split
  case h_3 => split <;> simp
  all_goals simp

@[simp] theorem State.writeGic_pstate (s : State) (r : SysReg) (w : Word) :
    (s.writeGic r w).pstate = s.pstate := by
  unfold State.writeGic
  split
  · exact s.writeVirtual_pstate r w
  · split <;> rfl

@[simp] theorem State.injectError_pstate (s : State) (w : Word) :
    (s.injectError w).pstate = s.pstate := by
  unfold State.injectError
  split <;> rfl

@[simp] theorem State.writeErrStatus_pstate (s : State) (w : Word) :
    (s.writeErrStatus w).pstate = s.pstate := by
  unfold State.writeErrStatus
  dsimp only
  split <;> rfl

@[simp] theorem State.writeInjectCtl_pstate (s : State) (w : Word) :
    (s.writeInjectCtl w).pstate = s.pstate := by
  unfold State.writeInjectCtl
  dsimp only
  split <;> simp

@[simp] theorem State.writeInjectCdn_pstate (s : State) (w : Word) :
    (s.writeInjectCdn w).pstate = s.pstate := rfl

@[simp] theorem State.writePmcr_pstate (s : State) (w : Word) :
    (s.writePmcr w).pstate = s.pstate := by
  obtain ⟨v, un, h⟩ := s.writePmcr_same w
  rw [h]

/-- PSTATE is written through its own views alone. -/
theorem State.writeSys_pstate (s : State) (r : SysReg) (w : Word) (h : r.info.group ≠ .pstate) :
    (s.writeSys r w).pstate = s.pstate := by
  unfold State.writeSys
  -- A view of PSTATE is excluded by its group; every other arm is one of the writes above.
  split <;> first
    | exact absurd rfl h
    | rfl
    | (repeat' split) <;> simp

end Sys2Proof.Machine
end

section
/-! Proofs of the statements about MRS and MSR (R315 to R318, R452, R457, R500, R541). -/

namespace Sys2Proof.Machine

/-- A general register after it is written: 31 stays the zero register (R43). -/
theorem State.xr_setX_self (s : State) (r : Reg) (v : Word) : (s.setX r v).xr r = valueOf r v := by
  rw [State.xr_setX, valueOf]
  by_cases h : r = 31
  · subst h
    rw [if_neg (by decide), if_pos rfl, State.xr_zr]
  · rw [if_pos ⟨rfl, h⟩, if_neg h]

/-! What an access does -/

/-- An MRS or MSR that takes an exception instead. -/
theorem execMrs_of_gate {s t : State} {r : SysReg} {e : SysEnc} {rt : Reg}
    (hr : s.cfg.regAt e = some r) (h : s.sysGate r e rt true = some t) :
    execMrs rt e s = .next t := by
  rw [execMrs, hr]
  dsimp only
  rw [h]

theorem execMsr_of_gate {s t : State} {r : SysReg} {e : SysEnc} {rt : Reg}
    (hr : s.cfg.regAt e = some r) (h : s.sysGate r e rt false = some t) :
    execMsr e rt s = .next t := by
  rw [execMsr, hr]
  dsimp only
  rw [h]

/-- An MSR that is allowed. -/
theorem execMsr_of_allowed {s : State} {r : SysReg} {e : SysEnc} {rt : Reg}
    (hr : s.cfg.regAt e = some r) (h : s.sysGate r e rt false = none) (hn : s.hasNext) :
    execMsr e rt s = .next ((s.advanced.writeSys r (s.xr rt)).record .disturbance) := by
  rw [execMsr, hr]
  dsimp only
  rw [h]
  exact State.advanceWith_next_of_hasNext _ hn

/-- An MRS that is allowed. -/
theorem execMrs_of_allowed {s : State} {r : SysReg} {e : SysEnc} {rt : Reg}
    (hr : s.cfg.regAt e = some r) (h : s.sysGate r e rt true = none)
    (hsync : r.info.group = .ramData → s.ram.synced = true) (hn : s.hasNext) :
    execMrs rt e s = .next ((s.advanced.afterRead r).setX rt (s.advanced.readSys r)) := by
  have synced : ¬ (r.info.group == .ramData && !s.ram.synced) = true := by
    rw [Bool.and_eq_true, beq_iff_eq]
    rintro ⟨hg, hs⟩
    simp [hsync hg] at hs
  rw [execMrs, hr]
  dsimp only
  rw [h]
  exact (if_neg synced).trans (State.advanceWith_next_of_hasNext _ hn)

/-! Reads -/

/-- The side effect of a read: none, the word of the Debug Communications Channel taken, or an
acknowledge (R479, R551). -/
theorem State.afterRead_cases (s : State) (r : SysReg) :
    s.afterRead r = s ∨
    ((r = .dbgdtrx_el0 ∨ r = .dbgdtr_el0) ∧ ∃ d, s.afterRead r = { s with dbg := d }) ∨
    ((r = .icc_iar0_el1 ∨ r = .icc_iar1_el1) ∧
      ∃ g0, s.afterRead r = s.virtAcknowledge g0 ∨ s.afterRead r = s.acknowledge g0) := by
  unfold State.afterRead
  split
  · exact .inr (.inl ⟨.inl rfl, _, rfl⟩)
  · exact .inr (.inl ⟨.inr rfl, _, rfl⟩)
  · split
    · unfold State.afterGicRead
      split
      · exact .inr (.inr ⟨.inl rfl, true, by split <;> simp⟩)
      · exact .inr (.inr ⟨.inr rfl, false, by split <;> simp⟩)
      · exact .inl rfl
    · exact .inl rfl

/-- A register outside the CPU interface after a virtual acknowledge. -/
theorem State.virtAcknowledge_get (s : State) (g0 : Bool) {q : SysReg} (h : q.info.group ≠ .gic) :
    (s.virtAcknowledge g0).get q = s.get q := by
  have lists : ∀ r ∈ listRegs, r.info.group = .gic := by decide
  have active : (virtActive g0).info.group = .gic := by cases g0 <;> rfl
  unfold State.virtAcknowledge
  split
  next r hr =>
    have mem : r ∈ listRegs := (List.mem_filter.1 (State.highestVirt_mem hr)).1
    have list : q ≠ r := fun e => h (e ▸ lists r mem)
    have prio : q ≠ virtActive g0 := fun e => h (e ▸ active)
    rw [State.get_putByUnit, if_neg prio, State.get_putByUnit, if_neg list]
  next => rfl

/-- An acknowledge changes nothing of the debug unit. -/
theorem State.acknowledge_dbg (s : State) (g0 : Bool) :
    (s.acknowledge g0).dbg = s.dbg ∧ (s.virtAcknowledge g0).dbg = s.dbg := by
  unfold State.acknowledge State.virtAcknowledge
  constructor <;> split <;> rfl

/-- What a read leaves of the registers. -/
theorem State.afterRead_leaves (s : State) (r : SysReg) :
    (r ≠ .icc_iar0_el1 → r ≠ .icc_iar1_el1 → (s.afterRead r).sys = s.sys ∧
      (s.afterRead r).unsynced = s.unsynced ∧ (s.afterRead r).gic = s.gic) ∧
    (∀ q, q.info.group ≠ .gic → (s.afterRead r).get q = s.get q) ∧
    (r ≠ .dbgdtrx_el0 → r ≠ .dbgdtr_el0 → (s.afterRead r).dbg = s.dbg) ∧
    (s.afterRead r).sp = s.sp ∧ (s.afterRead r).pstate = s.pstate := by
  rcases s.afterRead_cases r with h | ⟨hr, d, h⟩ | ⟨hr, g0, h | h⟩ <;> rw [h]
  · exact ⟨fun _ _ => ⟨rfl, rfl, rfl⟩, fun _ _ => rfl, fun _ _ => rfl, rfl, rfl⟩
  · refine ⟨fun _ _ => ⟨rfl, rfl, rfl⟩, fun _ _ => rfl, fun h1 h2 => ?_, rfl, rfl⟩
    exact absurd hr (by simp [h1, h2])
  · refine ⟨fun h1 h2 => absurd hr (by simp [h1, h2]), fun q hq => s.virtAcknowledge_get g0 hq,
      fun _ _ => (s.acknowledge_dbg g0).2, ?_⟩
    unfold State.virtAcknowledge
    split <;> exact ⟨rfl, rfl⟩
  · refine ⟨fun h1 h2 => absurd hr (by simp [h1, h2]), fun q _ => ?_,
      fun _ _ => (s.acknowledge_dbg g0).1, ?_⟩ <;> unfold State.acknowledge
    · split <;> rfl
    · split <;> exact ⟨rfl, rfl⟩

/-- Settles O21, from what a read leaves and what the register write after it leaves. -/
theorem mrsReadsRegister : Obligations.MrsReadsRegister := by
  refine fun s r e rt hr hg => ⟨fun hram hs => ?_, fun hram hn => ?_⟩
  · change execMrs rt e s = _
    rw [execMrs, hr]
    dsimp only
    rw [hg]
    exact if_pos (by simp [hram, hs])
  · obtain ⟨hgic, hother, hdbg, hsp, hps⟩ := s.advanced.afterRead_leaves r
    obtain ⟨sp, p, sys, un, lock, gic, ras, tr, db, only⟩ := s.advanced.afterRead_only r
    have reads (q : Reg) : ((s.advanced.afterRead r).setX rt (s.advanced.readSys r)).xr q =
        if q = rt ∧ rt ≠ 31 then s.advanced.readSys r else s.xr q := by
      rw [State.xr_setX]
      exact congrArg _ (State.xr_congr (by rw [only]; rfl) q)
    have value : ((s.advanced.afterRead r).setX rt (s.advanced.readSys r)).xr rt =
        valueOf rt (s.advanced.readSys r) := State.xr_setX_self _ _ _
    refine ⟨_, execMrs_of_allowed hr hg hram hn, ?_, value, fun q hq => ?_, ?_, ?_, ?_, ?_, ?_,
      fun hstored => ?_, fun h1 h2 => ?_, fun q hq => ?_, fun h1 h2 => ?_⟩
    · rw [State.setX_pc, only]
      rfl
    · rw [reads, if_neg (by simp [hq])]
    · exact (State.setX_sp _ _ _).trans hsp
    · exact (State.setX_pstate _ _ _).trans hps
    · rw [State.setX_vec, only]
      rfl
    · rw [State.setX_mem, only]
      rfl
    · rw [State.setX_monitor, only]
      rfl
    · rw [value]
      rcases hstored with h | h
      · rw [State.readSys_stored _ h]
        rfl
      · rw [State.readSys_ramData _ h]
        rfl
    · obtain ⟨h3, h4, h5⟩ := hgic h1 h2
      exact ⟨(State.setX_sys _ _ _).trans h3, (State.setX_unsynced _ _ _).trans h4,
        (State.setX_gic _ _ _).trans h5⟩
    · exact (State.setX_get _ _ _ _).trans (hother q hq)
    · exact (State.setX_debug _ _ _).trans (hdbg h1 h2)

/-! Writes -/

/-- Settles O22: a write changes registers alone, a storing register exactly as written. -/
theorem msrWritesRegister : Obligations.MsrWritesRegister := by
  intro s r e rt hr hg hn
  obtain ⟨sp, p, sys, un, lock, gic, ras, tr, db, only⟩ := s.advanced.writeSys_only r (s.xr rt)
  refine ⟨_, execMsr_of_allowed hr hg hn, ?_, ?_, ?_, ?_, ?_, fun hp => ?_, fun hstored => ?_,
    fun hvbar => ?_⟩
  · rw [only]
    rfl
  · rw [only]
    rfl
  · rw [only]
    rfl
  · rw [only]
    rfl
  · rw [only]
    rfl
  · exact s.advanced.writeSys_pstate r _ hp
  · rw [State.writeSys_stored _ _ hstored]
    refine ⟨(State.get_putControl _ _ _ _).trans (if_pos rfl), fun q hq => ?_, rfl⟩
    exact (State.get_putControl _ _ _ _).trans (if_neg hq)
  · rw [State.writeSys_vbar _ _ hvbar]
    refine ⟨(State.get_putControl _ _ _ _).trans (if_pos rfl), fun q hq => ?_⟩
    exact (State.get_putControl _ _ _ _).trans (if_neg hq)

/-- Settles O15: the written value and the one before it are all that may be seen, and after ISB the
written one alone. -/
theorem registerWriteSeenAfterIsb : Obligations.RegisterWriteSeenAfterIsb := by
  intro s r e rt hmem hr hg holds hn
  have controls : ∀ q ∈ [SysReg.ttbr0_el1, .ttbr1_el1, .tcr_el1, .ttbr0_el2, .ttbr1_el2, .tcr_el2,
      .ttbr0_el3, .tcr_el3, .vttbr_el2, .vtcr_el2, .sctlr_el1, .sctlr_el2, .sctlr_el3],
      q ∈ storedRegs := by decide
  have written := State.writeSys_stored s.advanced (s.xr rt) (controls r hmem)
  have value : ((s.advanced.putControl r (s.xr rt)).record .disturbance).get r = s.xr rt :=
    (State.get_putControl _ _ _ _).trans (if_pos rfl)
  refine ⟨_, written ▸ execMsr_of_allowed hr hg hn, value, ?_, fun crm u hu => ?_⟩
  · have seen := State.ctl_mem ((s.advanced.putControl r (s.xr rt)).record .disturbance) r
    rw [value, List.mem_cons] at seen
    refine seen.imp_right fun hold => ?_
    rcases State.olds_putControl s.advanced r (s.xr rt) _ hold with h | h
    · exact h
    · exact absurd (holds ▸ h) List.not_mem_nil
  · obtain ⟨-, rfl⟩ := State.advanceWith_next hu
    exact (State.contextSync_ctl _ r).trans value

/-! UNDEFINED accesses (R452, R500) -/

/-- An access in a direction that the register lacks, or from below its level, is UNDEFINED. -/
theorem State.sysGate_of_level {s : State} {r : SysReg} (e : SysEnc) (rt : Reg) {read : Bool}
    (h : accessLevel r read = none ∨ ((r.info.group = .amu → s.amuTrap = none) ∧
      ∃ l, accessLevel r read = some l ∧ s.el < l)) :
    s.sysGate r e rt read = some s.undefined := by
  unfold State.sysGate
  split
  · rfl
  · next exists_ =>
    rcases h with h | ⟨hamu, l, hl, hlt⟩
    · simp [h] at exists_
    · have untrapped : (if r.info.group == .amu then s.amuTrap else none) = none := by
        split
        · next hg => exact hamu (beq_iff_eq.1 hg)
        · rfl
      have undefined : s.sysUndefined r read = true := by
        simpa [State.sysUndefined, State.levelAllows, hl] using hlt
      rw [untrapped]
      exact if_pos undefined

/-- Settles O23: `sysGate` answers the exception, and RAMINDEX its own. -/
theorem registerBelowItsLevelUndefined : Obligations.RegisterBelowItsLevelUndefined := by
  refine fun s r e rt => ⟨fun hr h => ?_, fun hr h => ?_, fun hel => ?_⟩
  · exact ⟨_, execMrs_of_gate hr (State.sysGate_of_level e rt h), s.undefined_took⟩
  · exact ⟨_, execMsr_of_gate hr (State.sysGate_of_level e rt h), s.undefined_took⟩
  · have apart : ∀ l : EL, ∀ p ∈ ramDataRegs, p.1 ≠ spsrOf l ∧ p.1 ≠ elrOf l ∧ p.1 ≠ esrOf l ∧
        p.1 ≠ farOf l ∧ p.1 ≠ .hpfar_el2 := by decide
    refine ⟨s.undefined, if_neg hel, s.undefined_took,
      by rw [State.undefined, State.takeSync, State.takeException_ram], fun p hp => ?_⟩
    obtain ⟨h1, h2, h3, h4, h5⟩ := apart s.syncTarget p hp
    exact State.takeException_get_of_ne _ _ h1 h2 h3 h4 h5

/-- A register of the disabled CPU interface is there for no level. -/
theorem State.sysGate_of_gicDisabled {s : State} {r : SysReg} (e : SysEnc) (rt : Reg) (read : Bool)
    (h : s.gicDisabled = true) (hr : r.info.group = .gic) :
    s.sysGate r e rt read = some s.undefined := by
  have absent : s.sysAbsent r = true := by simp [State.sysAbsent, h, hr]
  exact if_pos (by simp [absent])

/-- Settles O24, for the named encodings and for those that no row names. -/
theorem gicRegisterUndefinedWhenDisabled : Obligations.GicRegisterUndefinedWhenDisabled := by
  rintro s e rt hd (⟨r, hr, hg⟩ | ⟨hr, hg⟩)
  · exact ⟨⟨_, execMrs_of_gate hr (State.sysGate_of_gicDisabled e rt true hd hg), s.undefined_took⟩,
      ⟨_, execMsr_of_gate hr (State.sysGate_of_gicDisabled e rt false hd hg), s.undefined_took⟩⟩
  · have unnamed (read : Bool) (f : State → State) : s.unnamedSys e read f = .next s.undefined :=
      if_pos (by simp [hd, hg])
    refine ⟨⟨_, ?_, s.undefined_took⟩, ⟨_, ?_, s.undefined_took⟩⟩
    · change execMrs rt e s = _
      rw [execMrs, hr]
      exact unnamed _ _
    · change execMsr e rt s = _
      rw [execMsr, hr]
      exact unnamed _ _

/-! Trapped accesses (R457, R541) -/

/-- The syndrome word of a trapped system instruction, as a sum. -/
theorem esrWord_sys {n : Nat} (h : n < 2 ^ 25) :
    esrWord 0x18 (BitVec.ofNat 25 n) = BitVec.ofNat 64 (0x62000000 + n) := by
  have head : (BitVec.ofNat 64 0x18 <<< 26) ||| flagAt true 25 = 0x62000000#64 := by decide
  have sum : 0x62000000 + n = 0x62000000 ||| n := Nat.two_pow_add_eq_or_of_lt h 49
  apply BitVec.eq_of_toNat_eq
  rw [esrWord, head, BitVec.toNat_or, BitVec.toNat_setWidth, BitVec.toNat_ofNat, BitVec.toNat_ofNat,
    BitVec.toNat_ofNat, Nat.mod_eq_of_lt h, Nat.mod_eq_of_lt (show n < 2 ^ 64 by omega), sum.symm,
    Nat.mod_eq_of_lt (show 0x62000000 + n < 2 ^ 64 by omega), sum]

/-- The level of the trap of an Activity Monitors access. -/
theorem State.amuTrap_eq_some {s : State} {el : EL}
    (h : (s.el < 2 ∧ s.el2Enabled = true ∧ bit (s.ctl .cptr_el2) 30 = true ∧ el = 2) ∨
      (s.el < 3 ∧ (2 ≤ s.el ∨ s.el2Enabled = false ∨ bit (s.ctl .cptr_el2) 30 = false) ∧
        bit (s.ctl .cptr_el3) 30 = true ∧ el = 3) ∨
      (s.el = 0 ∧ (s.el2Enabled = false ∨ bit (s.ctl .cptr_el2) 30 = false) ∧
        bit (s.ctl .cptr_el3) 30 = false ∧ bit (s.ctl .amuserenr_el0) 0 = false ∧
        el = s.syncTarget)) : s.amuTrap = some el := by
  unfold State.amuTrap
  rcases h with ⟨hl, he, ht, rfl⟩ | ⟨hl, he, ht, rfl⟩ | ⟨hl, he, h3, hu, rfl⟩
  · rw [if_pos (by simp [hl, he, ht])]
  · rw [if_neg (by rcases he with h | h | h <;> simp [h, not_lt.2]), if_pos (by simp [hl, ht])]
  · rw [if_neg (by rcases he with h | h <;> simp [h]), if_neg (by simp [h3]),
      if_pos (by simp [hl, hu])]

/-- An Activity Monitors access in a direction that the register has is trapped before anything
else. -/
theorem State.sysGate_of_amu {s : State} {r : SysReg} (e : SysEnc) (rt : Reg) {read : Bool}
    {el : EL} (hr : r.info.group = .amu) (hl : (accessLevel r read).isSome = true)
    (ht : s.amuTrap = some el) : s.sysGate r e rt read = some (s.trapSys el e rt read) := by
  obtain ⟨hc, hty⟩ := numberIn_of_amu r hr
  have present : s.sysAbsent r = false := by simp [State.sysAbsent, State.absent, hr, hc, hty]
  have direction : (accessLevel r read).isNone = false := by
    rw [← Option.not_isSome, hl]
    rfl
  rw [State.sysGate, if_neg (by simp [present, direction]), hr, if_pos (by decide), ht]

/-- Settles O25, from the trap of `sysGate` and its syndrome. -/
theorem amuAccessTrapped : Obligations.AmuAccessTrapped := by
  intro s r e rt read el hr hg hl hel
  have gate := State.sysGate_of_amu e rt hg hl (State.amuTrap_eq_some hel)
  refine ⟨s.trapSys el e rt read, ?_, s.takeSync_took el ?_⟩
  · cases read with
    | true => exact execMrs_of_gate hr gate
    | false => exact execMsr_of_gate hr gate
  · have h0 := e.o0.isLt
    have h1 := e.op1.isLt
    have h2 := e.op2.isLt
    have h3 := e.crn.isLt
    have h4 := e.crm.isLt
    have h5 := rt.isLt
    have h6 : (if read then 1 else 0) ≤ 1 := by cases read <;> simp
    rw [sysIss, esrWord_sys (by omega)]
    congr 1
    omega

end Sys2Proof.Machine
end

section
/-! Proofs of the statements about exclusive and atomic accesses that complete (R370 to R410). -/

namespace Sys2Proof.Machine

/-! The instructions by operation, size and ordering -/

theorem exec_loadExclOf (sz : Size) (acq : Bool) (rt rn : Reg) (s : State) :
    exec (Instr.loadExclOf sz acq rt rn) s = loadExcl sz acq rt rn s := by
  cases sz <;> cases acq <;> rfl

theorem exec_loadExclPairOf (wide acq : Bool) (rt rt2 rn : Reg) (s : State) :
    exec (Instr.loadExclPairOf wide acq rt rt2 rn) s = loadExclPair wide acq rt rt2 rn s := by
  cases wide <;> cases acq <;> rfl

theorem exec_storeExclOf (sz : Size) (rel : Bool) (rs rt rn : Reg) (s : State) :
    exec (Instr.storeExclOf sz rel rs rt rn) s = storeExcl sz rel rs rt rn s := by
  cases sz <;> cases rel <;> rfl

theorem exec_storeExclPairOf (wide rel : Bool) (rs rt rt2 rn : Reg) (s : State) :
    exec (Instr.storeExclPairOf wide rel rs rt rt2 rn) s =
      storeExclPair wide rel rs rt rt2 rn s := by
  cases wide <;> cases rel <;> rfl

theorem exec_casOf (sz : Size) (acq rel : Bool) (rs rt rn : Reg) (s : State) :
    exec (Instr.casOf sz acq rel rs rt rn) s = casMeaning sz acq rel rs rt rn s := by
  cases sz <;> cases acq <;> cases rel <;> rfl

theorem exec_caspOf (wide acq rel : Bool) (rs rt rn : Reg) (s : State) :
    exec (Instr.caspOf wide acq rel rs rt rn) s = caspMeaning wide acq rel rs rt rn s := by
  cases wide <;> cases acq <;> cases rel <;> rfl

theorem exec_atomicOf (op : AtomicOp) (sz : Size) (acq rel : Bool) (rs rt rn : Reg) (s : State) :
    exec (Instr.atomicOf op sz acq rel rs rt rn) s = atomicUpdate op sz acq rel rs rt rn s := by
  cases op <;> cases sz <;> cases acq <;> cases rel <;> rfl

theorem exec_storeAtomicOf (op : AtomicOp) (sz : Size) (rel : Bool) (rs rn : Reg) (s : State) :
    exec (Instr.storeAtomicOf op sz rel rs rn) s = atomicUpdate op sz false rel rs 31 rn s := by
  cases op with
  | swp => exact exec_atomicOf .swp sz false rel rs 31 rn s
  | _ => cases sz <;> cases rel <;> rfl

/-! Registers written with data -/

/-- The low bytes of low bytes. -/
theorem lowBytes_lowBytes (n : Nat) (v : Data) : lowBytes n (lowBytes n v) = lowBytes n v := by
  refine BitVec.eq_of_getLsbD_eq fun i _ => ?_
  rw [getLsbD_lowBytes, getLsbD_lowBytes, ← Bool.and_assoc, Bool.and_self]

/-- A register kept apart from more registers is still kept. -/
theorem KeepsRegs.mono {s t : State} {dst dst' : List Reg} {b : BitVec 2}
    (h : KeepsRegs s t dst b) (hd : dst ⊆ dst') : KeepsRegs s t dst' b :=
  ⟨fun q hq => h.general q fun hm => hq (hd hm), h.pointers, h.pstate, h.vectors, h.special⟩

/-- A register written after what keeps the others. -/
theorem KeepsRegs.setX {s t : State} {dst : List Reg} {b : BitVec 2} (h : KeepsRegs s t dst b)
    (r : Reg) (v : Word) : KeepsRegs s (t.setX r v) (r :: dst) b where
  general q hq := by
    rw [List.mem_cons, not_or] at hq
    rw [State.xr_setX, if_neg fun e => hq.1 e.1]
    exact h.general q hq.2
  pointers := (State.setX_sp _ _ _).trans h.pointers
  pstate := (State.setX_pstate _ _ _).trans h.pstate
  vectors := (State.setX_vec _ _ _).trans h.vectors
  special := (State.setX_sys _ _ _).trans h.special

/-- What a register reads as after it is written with data that a load gives. -/
theorem State.xr_setXData_self (s : State) (r : Reg) {n : Nat} {v : Data} (h : lowBytes n v = v) :
    (s.setXData r n v).xr r = valueOf r (v.setWidth 64) := by
  rw [State.xr_setXData, if_pos rfl, h]

/-- The two registers of a pair form after they are written. -/
theorem State.xr_setPair (s : State) {r1 r2 : Reg} (hne : r1 ≠ r2) (h : Nat) (v : Data) :
    (s.setPair r1 r2 h v).xr r1 = valueOf r1 ((lowBytes h v).setWidth 64) ∧
      (s.setPair r1 r2 h v).xr r2 = valueOf r2 ((lowBytes h (v >>> (8 * h))).setWidth 64) := by
  constructor
  · rw [State.setPair, State.xr_setXData, if_neg hne, State.xr_setXData, if_pos rfl]
  · rw [State.setPair, State.xr_setXData, if_pos rfl]

/-- A pair of registers written after what keeps the others. -/
theorem KeepsRegs.setPair {s t : State} {b : BitVec 2} (h : KeepsRegs s t [] b) (r1 r2 : Reg)
    (n : Nat) (v : Data) : KeepsRegs s (t.setPair r1 r2 n v) [r1, r2] b :=
  ((h.setX r1 _).setX r2 _).mono (by simp)

/-- Writing a register pair changes the general registers alone. -/
theorem State.setPair_eq (s : State) (r1 r2 : Reg) (h : Nat) (v : Data) :
    ∃ x, s.setPair r1 r2 h v = { s with x := x } := by
  obtain ⟨x, hx⟩ := s.setXData_eq r1 h v
  obtain ⟨y, hy⟩ := (s.setXData r1 h v).setXData_eq r2 h (v >>> (8 * h))
  exact ⟨y, by rw [State.setPair, hy, hx]⟩

/-- The bytes of a register pair form: one register's and twice as many. -/
theorem pairBytes_le (wide : Bool) : pairBytes wide ≤ 8 := by cases wide <;> decide

/-- The bytes of a register. -/
theorem sizeBytes_le (sz : Size) : sz.bytes ≤ 8 := by cases sz <;> decide

/-! Load-Exclusives (R380 to R387) -/

/-- Settles O31, from `State.loadExclusive_completes` and the register written after it. -/
theorem loadExclusiveReadsAndTags : Obligations.LoadExclusiveReadsAndTags := by
  rintro sz acq rt rn s s1 m r rfl ha hg hu hm hb hn
  obtain ⟨t, hrun, hmon, hpc, hkeep, hmem, hev, -⟩ :=
    s.loadExclusive_completes s1 m sz.bytes acq rn (fun t v => t.setXData rt sz.bytes v) ha hg hu hm
      hb hn
  obtain ⟨x, hx⟩ := t.setXData_eq rt sz.bytes (s1.loadData m sz.bytes)
  have value := t.xr_setXData_self rt (s1.lowBytes_loadData m sz.bytes)
  refine ⟨_, (exec_loadExclOf sz acq rt rn s).trans hrun, value, fun hsh hbus => ?_, ?_, ?_,
    hkeep.setX rt _, ?_, ?_⟩
  · have off : s1.onUtilityBus m = false :=
      (State.translate_same hg.translated).onUtilityBus m ▸ hbus
    rw [value, State.loadData_shareable s1 sz.bytes hsh off]
  · rw [hx]
    exact hmon
  · rw [hx]
    exact hpc
  · rw [hx]
    exact hmem
  · rw [hx]
    exact hev

/-- Settles O32, from the same and the two registers written after it. -/
theorem loadExclusivePairReadsAndTags : Obligations.LoadExclusivePairReadsAndTags := by
  intro wide acq rt rt2 rn s s1 m r h
  refine ⟨fun heq => ?_, ?_⟩
  · exact (exec_loadExclPairOf wide acq rt rt2 rn s).trans (if_pos heq)
  · rintro hne rfl rfl ha hg hu hm hb hn
    obtain ⟨t, hrun, hmon, hpc, hkeep, hmem, hev, -⟩ :=
      s.loadExclusive_completes s1 m (2 * pairBytes wide) acq rn
        (fun t v => t.setPair rt rt2 (pairBytes wide) v) ha hg hu hm hb hn
    obtain ⟨x, hx⟩ := t.setPair_eq rt rt2 (pairBytes wide) (s1.loadData m (2 * pairBytes wide))
    obtain ⟨v1, v2⟩ := t.xr_setPair hne (pairBytes wide) (s1.loadData m (2 * pairBytes wide))
    refine ⟨_, (exec_loadExclPairOf wide acq rt rt2 rn s).trans ((if_neg hne).trans hrun), v1, v2,
      fun hsh hbus => ?_, ?_, ?_, hkeep.setPair rt rt2 _ _, ?_, ?_⟩
    · have off : s1.onUtilityBus m = false :=
        (State.translate_same hg.translated).onUtilityBus m ▸ hbus
      have small := pairBytes_le wide
      rw [State.loadData_shareable s1 _ hsh off, Nat.two_mul] at v1 v2
      rw [Memory.readLE_low] at v1
      rw [Memory.readLE_shift _ _ _ _ (by omega)] at v2
      rw [State.loadData_shareable s1 _ hsh off, Nat.two_mul]
      exact ⟨v1, v2⟩
    · rw [hx]
      exact hmon
    · rw [hx]
      exact hpc
    · rw [hx]
      exact hmem
    · rw [hx]
      exact hev

/-! The bytes that a store leaves -/

/-- A register's bytes stand where its data are stored. -/
theorem HoldsBytes.of_writeLE {t : State} {mem : List Host.Cell} {key n : Nat} {d : Data} {w : Word}
    (hwf : Memory.wf mem) (hn : n ≤ 8) (h : t.mem = Memory.writeLE mem key n d)
    (hd : lowBytes n d = lowBytes n (w.setWidth 128)) : HoldsBytes t key n w := by
  rw [HoldsBytes.iff_readLE t key n w hn, h, Memory.readLE_writeLE hwf, hd]

/-- Bytes outside those that are stored stay. -/
theorem KeepsMemOutside.of_writeLE {s t : State} {key n : Nat} {d : Data} (hwf : Memory.wf s.mem)
    (h : t.mem = Memory.writeLE s.mem key n d) : KeepsMemOutside s t key n := fun k hk => by
  rw [h, Memory.read_writeLE_of_out hwf d hk]

/-- Both registers' bytes stand where a pair's data are stored. -/
theorem HoldsBytes.of_pair {s t : State} {mem : List Host.Cell} {key h : Nat} {r1 r2 : Reg}
    (hwf : Memory.wf mem) (hh : h ≤ 8)
    (hm : t.mem = Memory.writeLE mem key (2 * h) (s.pairData r1 r2 h)) :
    HoldsBytes t key h (s.xr r1) ∧ HoldsBytes t (key + h) h (s.xr r2) := by
  refine ⟨fun i hi => ?_, fun i hi => ?_⟩
  · rw [hm, Memory.read_writeLE hwf key (2 * h) _ i (by omega)]
    exact (s.pairData_byte r1 r2 h i hh hi).1
  · rw [hm, Nat.add_assoc, Memory.read_writeLE hwf key (2 * h) _ (h + i) (by omega)]
    exact (s.pairData_byte r1 r2 h i hh hi).2

/-! Store-Exclusives (R374, R375, R388 to R395) -/

/-- With the monitor open the check does not pass. -/
theorem State.storePasses_opened {s : State} (h : s.monitor = .opened) (m : Mapped) (n : Nat) :
    s.storePasses m n = false := if_pos (by simp [h])

/-- With no failures left a pair that obeys the rules passes (R374). -/
theorem State.storePasses_of_budget {s : State} {m : Mapped} {n : Nat}
    (hm : s.monitorHolds m.pa m.ns = true) (hc : s.cleanPair m n = true) (hb : s.exclBudget = 0) :
    s.storePasses m n = true := by
  have held : s.monitor = .exclusive (tagOf m.pa) m.ns := by simpa [State.monitorHolds] using hm
  rw [State.storePasses, if_neg (by simp [held]), if_pos hm]
  simp [hc, hb]

/-- A failure of such a pair takes one from the budget. -/
theorem State.budgetAfter_of_fails {s : State} {m : Mapped} {n : Nat}
    (hp : s.storePasses m n = false) (hc : s.cleanPair m n = true) :
    s.budgetAfter m n = s.exclBudget - 1 := by
  rw [State.budgetAfter, if_neg (by simp [hp]), if_pos hc]

/-- A Store-Exclusive with registers that do not overlap. -/
theorem storeExcl_of_apart {rs rt rn : Reg} (h1 : rs ≠ rt) (h2 : rs = rn → rn = 31) (sz : Size)
    (rel : Bool) (s : State) : storeExcl sz rel rs rt rn s =
      s.storeExclusive sz.bytes rel rs rn (s.xData rt sz.bytes) :=
  if_neg fun h => h.elim h1 fun h => h.2 (h2 h.1)

theorem storeExclPair_of_apart {rs rt rt2 rn : Reg} (h1 : rs ≠ rt) (h2 : rs ≠ rt2)
    (h3 : rs = rn → rn = 31) (wide rel : Bool) (s : State) : storeExclPair wide rel rs rt rt2 rn s =
      s.storeExclusive (2 * pairBytes wide) rel rs rn (s.pairData rt rt2 (pairBytes wide)) :=
  if_neg fun h => h.elim h1 fun h => h.elim h2 fun h => h.2 (h3 h.1)

/-- Settles O33, from `State.storeExclusive_completes`. -/
theorem storeExclusiveStoresOrFails : Obligations.StoreExclusiveStoresOrFails := by
  intro sz rel rs rt rn s s1 m r
  refine ⟨fun h => (exec_storeExclOf sz rel rs rt rn s).trans (if_pos h), ?_⟩
  rintro h1 h2 rfl ha hg hu hm hn hwf
  obtain ⟨t, hrun, hmon, hpc, hbudget, hpass, hfail⟩ :=
    s.storeExclusive_completes s1 m sz.bytes rel rs rn (s.xData rt sz.bytes) ha hg hu hm hn
  have wf1 := State.translate_wf hg.translated hwf
  refine ⟨t, ((exec_storeExclOf sz rel rs rt rn s).trans
    (storeExcl_of_apart h1 h2 sz rel s)).trans hrun, hmon, hpc,
    fun h => State.storePasses_opened h m sz.bytes, State.storePasses_of_budget,
    fun hp hc => hbudget.trans (State.budgetAfter_of_fails hp hc), fun hp => ?_, hfail⟩
  obtain ⟨hstatus, hstored⟩ := hpass hp
  refine ⟨hstatus, fun hoff => ?_, hstored.bus⟩
  obtain ⟨hkeep, hmem⟩ := hstored.memory hoff
  exact ⟨hkeep, .of_writeLE wf1 (sizeBytes_le sz) hmem (lowBytes_lowBytes _ _),
    .of_writeLE wf1 hmem⟩

/-- Settles O34, from the same. -/
theorem storeExclusivePairStoresOrFails : Obligations.StoreExclusivePairStoresOrFails := by
  intro wide rel rs rt rt2 rn s s1 m r h
  refine ⟨fun h => (exec_storeExclPairOf wide rel rs rt rt2 rn s).trans (if_pos h), ?_⟩
  rintro h1 h2 h3 rfl rfl ha hg hu hm hn hwf
  obtain ⟨t, hrun, hmon, hpc, -, hpass, hfail⟩ :=
    s.storeExclusive_completes s1 m (2 * pairBytes wide) rel rs rn
      (s.pairData rt rt2 (pairBytes wide)) ha hg hu hm hn
  have wf1 := State.translate_wf hg.translated hwf
  refine ⟨t, ((exec_storeExclPairOf wide rel rs rt rt2 rn s).trans
    (storeExclPair_of_apart h1 h2 h3 wide rel s)).trans hrun, hmon, hpc,
    fun h => State.storePasses_opened h m _, fun hp => ?_, hfail⟩
  obtain ⟨hstatus, hstored⟩ := hpass hp
  refine ⟨hstatus, fun hoff => ?_, hstored.bus⟩
  obtain ⟨hkeep, hmem⟩ := hstored.memory hoff
  obtain ⟨low, high⟩ := HoldsBytes.of_pair wf1 (pairBytes_le wide) hmem
  exact ⟨hkeep, low, high, .of_writeLE wf1 hmem⟩

end Sys2Proof.Machine
end

section
/-! Proofs of the statements about compare and swap and the atomic operations (R396 to R410). -/

namespace Sys2Proof.Machine

/-! Stores and the registers written after them -/

/-- A register written with data after a store. -/
theorem StoredAt.setXData {s u t : State} {dst : List Reg} {m : Mapped} {n : Nat} {d : Data}
    (h : StoredAt s u t dst m n d) (r : Reg) (k : Nat) (v : Data) :
    StoredAt s u (t.setXData r k v) (r :: dst) m n d := h.setX r _

/-- A store on the utility bus, with more registers written. -/
theorem KeepsRegsOnBus.mono {s t : State} {dst dst' : List Reg} {b : BitVec 2}
    (h : KeepsRegsOnBus s t dst b) (hd : dst ⊆ dst') : KeepsRegsOnBus s t dst' b :=
  ⟨fun q hq => h.general q fun hm => hq (hd hm), h.pointers, h.pstate, h.vectors, h.special⟩

/-- A register pair written after a store. -/
theorem StoredAt.setPair {s u t : State} {m : Mapped} {n : Nat} {d : Data}
    (h : StoredAt s u t [] m n d) (r1 r2 : Reg) (k : Nat) (v : Data) :
    StoredAt s u (t.setPair r1 r2 k v) [r1, r2] m n d := by
  have both := (h.setXData r1 k v).setXData r2 k (v >>> (8 * k))
  exact ⟨fun hb => (both.memory hb).imp_left (·.mono (by simp)),
    fun hb => (both.bus hb).imp_left (·.mono (by simp))⟩

/-! Compare and swap (R397 to R400) -/

/-- Memory after both translations of a compare and swap keeps its form. -/
theorem State.settled_wf {s s1 s2 : State} {r : Req} {m1 m : Mapped} {w : Bool}
    (hg : Granted s r .read s1 m1) (hg2 : Granted s1 r .write s2 m) (hwf : Memory.wf s.mem) :
    Memory.wf (s1.settled s2 w).mem := by
  have wf1 := State.translate_wf hg.translated hwf
  cases w with
  | false => exact wf1
  | true => exact State.translate_wf hg2.translated wf1

/-- Settles O35, from `State.compareSwap_completes` and the register written after it. -/
theorem compareAndSwapUpdates : Obligations.CompareAndSwapUpdates := by
  intro sz acq rel rs rt rn s s1 s2 u m1 m r old hr ha hg hg2 hold hu0 hu hc hn hwf
  subst hr hold
  obtain ⟨t, hrun, hpc, -, hstore, hkeep, hmon⟩ :=
    s.compareSwap_completes s1 s2 u m1 m sz.bytes acq rel rn (s.xData rs sz.bytes)
      (s.xData rt sz.bytes) (fun t v => t.setXData rs sz.bytes v) ha hg hg2 hu0 hu hc hn
  obtain ⟨x, hx⟩ := t.setXData_eq rs sz.bytes (u.loadData m sz.bytes)
  have same : SameCore s u := hu0 ▸ State.settled_same (State.translate_same hg.translated)
    ((State.translate_same hg.translated).trans (State.translate_same hg2.translated))
  have wfu : Memory.wf u.mem := hu0 ▸ State.settled_wf hg hg2 hwf
  refine ⟨_, (exec_casOf sz acq rel rs rt rn s).trans hrun,
    t.xr_setXData_self rs (u.lowBytes_loadData m sz.bytes), ?_, fun hsh hbus => ?_,
    fun heq hoff => ?_, fun heq hon => ?_, fun hne => ?_, ?_⟩
  · rw [hx]
    exact hpc
  · exact State.loadData_shareable u sz.bytes hsh (same.onUtilityBus m ▸ hbus)
  · obtain ⟨keeps, hmem⟩ :=
      ((hstore heq).setXData rs sz.bytes (u.loadData m sz.bytes)).memory hoff
    exact ⟨keeps, .of_writeLE wfu (sizeBytes_le sz) hmem (lowBytes_lowBytes _ _),
      .of_writeLE wfu hmem⟩
  · exact ((hstore heq).setXData rs sz.bytes (u.loadData m sz.bytes)).bus hon
  · obtain ⟨keeps, hmem⟩ := hkeep hne
    refine ⟨keeps.setX rs _, ?_⟩
    rw [hx]
    exact hmem
  · rw [hx]
    exact hmon

/-- An even register is neither the zero register nor the one after it. -/
theorem even_reg {r : Reg} (h : r.toNat % 2 = 0) : r ≠ 31 ∧ r ≠ pairNext r := by
  refine ⟨?_, ?_⟩
  · rintro rfl
    simp at h
  · unfold pairNext
    bv_omega

/-- The lowest bit of a register's number. -/
theorem getLsbD_zero_iff (r : Reg) : r.getLsbD 0 = true ↔ r.toNat % 2 = 1 := by
  rw [BitVec.getLsbD, Nat.testBit_zero, decide_eq_true_iff]

/-- With even first registers CASP is a compare and swap of the pairs. -/
theorem caspMeaning_of_even {rs rt : Reg} (hrs : rs.toNat % 2 = 0) (hrt : rt.toNat % 2 = 0)
    (wide acq rel : Bool) (rn : Reg) (s : State) : caspMeaning wide acq rel rs rt rn s =
      s.compareSwap (2 * pairBytes wide) acq rel rn (s.pairData rs (pairNext rs) (pairBytes wide))
        (s.pairData rt (pairNext rt) (pairBytes wide))
        (fun t v => t.setPair rs (pairNext rs) (pairBytes wide) v) := by
  refine if_neg ?_
  rw [Bool.or_eq_true, getLsbD_zero_iff, getLsbD_zero_iff]
  omega

/-- Settles O36, from the same and the two registers written after it. -/
theorem compareAndSwapPairUpdates : Obligations.CompareAndSwapPairUpdates := by
  intro wide acq rel rs rt rn s s1 s2 u m1 m r h old
  refine ⟨fun hodd => ?_, ?_⟩
  · have odd : (rs.getLsbD 0 || rt.getLsbD 0) = true := by
      rw [Bool.or_eq_true, getLsbD_zero_iff, getLsbD_zero_iff]
      exact hodd
    exact ⟨_, (exec_caspOf wide acq rel rs rt rn s).trans (if_pos odd), s.undefined_took⟩
  · intro hrs hrt hh hr ha hg hg2 hu0 hold hu hc hn hwf
    subst hh hr hold
    obtain ⟨hne31, hnext⟩ := even_reg hrs
    obtain ⟨t, hrun, hpc, -, hstore, hkeep, -⟩ :=
      s.compareSwap_completes s1 s2 u m1 m (2 * pairBytes wide) acq rel rn
        (s.pairData rs (pairNext rs) (pairBytes wide))
        (s.pairData rt (pairNext rt) (pairBytes wide))
        (fun t v => t.setPair rs (pairNext rs) (pairBytes wide) v) ha hg hg2 hu0 hu hc hn
    obtain ⟨x, hx⟩ := t.setPair_eq rs (pairNext rs) (pairBytes wide)
      (u.loadData m (2 * pairBytes wide))
    obtain ⟨v1, v2⟩ := t.xr_setPair hnext (pairBytes wide) (u.loadData m (2 * pairBytes wide))
    have same : SameCore s u := hu0 ▸ State.settled_same (State.translate_same hg.translated)
      ((State.translate_same hg.translated).trans (State.translate_same hg2.translated))
    have wfu : Memory.wf u.mem := hu0 ▸ State.settled_wf hg hg2 hwf
    refine ⟨_, ((exec_caspOf wide acq rel rs rt rn s).trans
      (caspMeaning_of_even hrs hrt wide acq rel rn s)).trans hrun,
      v1.trans (if_neg hne31), v2, ?_, fun hsh hbus => ?_, fun heq hoff => ?_, fun heq hon => ?_,
      fun hne => ?_⟩
    · rw [hx]
      exact hpc
    · exact State.loadData_shareable u _ hsh (same.onUtilityBus m ▸ hbus)
    · obtain ⟨keeps, hmem⟩ := ((hstore heq).setPair rs (pairNext rs) (pairBytes wide)
        (u.loadData m (2 * pairBytes wide))).memory hoff
      obtain ⟨low, high⟩ := HoldsBytes.of_pair wfu (pairBytes_le wide) hmem
      exact ⟨keeps, low, high, .of_writeLE wfu hmem⟩
    · exact ((hstore heq).setPair rs (pairNext rs) (pairBytes wide)
        (u.loadData m (2 * pairBytes wide))).bus hon
    · obtain ⟨keeps, hmem⟩ := hkeep hne
      refine ⟨keeps.setPair rs (pairNext rs) _ _, ?_⟩
      rw [hx]
      exact hmem

/-! Atomic operations (R401 to R410) -/

/-- The bytes of an operation's result stand where they are stored. -/
theorem HoldsBytes.of_apply {s t : State} {mem : List Host.Cell} {key : Nat} {op : AtomicOp}
    {sz : Size} {rs : Reg} {old : Data} (hwf : Memory.wf mem)
    (h : t.mem = Memory.writeLE mem key sz.bytes (op.apply sz.bytes old (s.xData rs sz.bytes))) :
    HoldsBytes t key sz.bytes ((op.result (old.setWidth (8 * sz.bytes))
      ((s.xr rs).setWidth (8 * sz.bytes))).setWidth 64) := by
  refine .of_writeLE hwf (sizeBytes_le sz) h ?_
  rw [AtomicOp.lowBytes_apply op _ (sizeBytes_le sz), State.setWidth_xData s rs _ (sizeBytes_le sz)]

/-- Settles O37, from `atomicUpdate_completes` and the register written after it. -/
theorem atomicLoadUpdates : Obligations.AtomicLoadUpdates := by
  intro op sz acq rel rs rt rn s s1 s2 m1 m r old hr ha hg hg2 hu hc hn hwf hold
  subst hr hold
  obtain ⟨t, hrun, hpc, -, hstore, hev, hmon⟩ :=
    atomicUpdate_completes s s1 s2 m1 m op sz acq rel rs rt rn ha hg hg2 hu hc hn
  obtain ⟨x, hx⟩ := t.setXData_eq rt sz.bytes (s2.loadData m sz.bytes)
  have same : SameCore s s2 :=
    (State.translate_same hg.translated).trans (State.translate_same hg2.translated)
  have wf2 := State.translate_wf hg2.translated (State.translate_wf hg.translated hwf)
  have stored := hstore.setXData rt sz.bytes (s2.loadData m sz.bytes)
  refine ⟨fun hsh hbus => State.loadData_shareable s2 _ hsh (same.onUtilityBus m ▸ hbus), _,
    (exec_atomicOf op sz acq rel rs rt rn s).trans hrun,
    t.xr_setXData_self rt (s2.lowBytes_loadData m sz.bytes), ?_, fun hoff => ?_, stored.bus, ?_, ?_⟩
  · rw [hx]
    exact hpc
  · obtain ⟨keeps, hmem⟩ := stored.memory hoff
    exact ⟨keeps, .of_apply wf2 hmem, .of_writeLE wf2 hmem⟩
  · rw [hx]
    exact hev
  · rw [hx]
    exact hmon

/-- Settles O38: the forms without a result register are those with register 31, which discards. -/
theorem atomicStoreUpdates : Obligations.AtomicStoreUpdates := by
  intro op sz rel rs rn s s1 s2 m1 m r old hr ha hg hg2 hu hc hn hwf hold
  subst hr hold
  obtain ⟨t, hrun, hpc, -, hstore, hev, -⟩ :=
    atomicUpdate_completes s s1 s2 m1 m op sz false rel rs 31 rn ha hg hg2 hu hc hn
  have discards : t.setXData 31 sz.bytes (s2.loadData m sz.bytes) = t := t.setX_zr _
  rw [discards] at hrun
  have same : SameCore s s2 :=
    (State.translate_same hg.translated).trans (State.translate_same hg2.translated)
  have wf2 := State.translate_wf hg2.translated (State.translate_wf hg.translated hwf)
  refine ⟨fun hsh hbus => State.loadData_shareable s2 _ hsh (same.onUtilityBus m ▸ hbus), t,
    (exec_storeAtomicOf op sz rel rs rn s).trans hrun, hpc, fun hoff => ?_, hstore.bus, hev⟩
  obtain ⟨keeps, hmem⟩ := hstore.memory hoff
  exact ⟨keeps, .of_apply wf2 hmem, .of_writeLE wf2 hmem⟩

end Sys2Proof.Machine
end

section
/-! Proofs of the statements about the data cache instructions and the prefetches (R411 to R416). -/

namespace Sys2Proof.Machine

/-! Traps of the DC operations (R457) -/

/-- A register number in the syndrome of a trap. -/
theorem ofNat_add_reg (c : Nat) (rt : Reg) :
    BitVec.ofNat 64 (c + rt.toNat * 2 ^ 5) = BitVec.ofNat 64 c + (rt.setWidth 64 <<< 5) := by
  have := rt.isLt
  apply BitVec.eq_of_toNat_eq
  simp only [BitVec.toNat_ofNat, BitVec.toNat_add, BitVec.toNat_shiftLeft, BitVec.toNat_setWidth,
    Nat.shiftLeft_eq]
  omega

/-- A trapped DC operation, with its syndrome. -/
theorem State.trapDc_took (s : State) (t : EL) (op1 : BitVec 3) (crm : BitVec 4) (op2 : BitVec 3)
    (rt : Reg) {c : Nat} (hc : c = 0x62000000 + 2 ^ 20 + op2.toNat * 2 ^ 17 + op1.toNat * 2 ^ 14 +
      7 * 2 ^ 10 + crm.toNat * 2) :
    TookSync s (s.trapDc t op1 crm op2 rt) t (BitVec.ofNat 64 c + (rt.setWidth 64 <<< 5)) := by
  have h1 := op1.isLt
  have h2 := op2.isLt
  have h3 := crm.isLt
  have h4 := rt.isLt
  refine s.takeSync_took t ?_
  rw [sysIss, esrWord_sys (by simp; omega), ← ofNat_add_reg]
  congr 1
  simp
  omega

/-! DC ZVA (R412) -/

/-- The start of the 64-byte block of a mapping. -/
theorem mappedKey_blockStart (m : Mapped) : mappedKey (blockStart m) = mappedKey m / 64 * 64 := by
  have start : ((m.pa >>> 6) <<< 6).toNat = m.pa.toNat / 64 * 64 := by
    have := m.pa.isLt
    rw [BitVec.toNat_shiftLeft, BitVec.toNat_ushiftRight, Nat.shiftLeft_eq,
      Nat.shiftRight_eq_div_pow]
    omega
  unfold mappedKey memKey blockStart
  dsimp only
  rw [start]
  split <;> omega

/-- `DC ZVA` is a store of 64 zero bytes, in a state that differs in the errors of the block and in
the pending SError. -/
theorem State.doZero_eq (v : State) (m : Mapped) : ∃ (w : State) (o : Monitor) (ev : List MemEvent),
    w = { v with poison := w.poison, cache := w.cache, irq := w.irq } ∧
      v.doZero m = { w.storeData m 64 0 with monitor := o, events := ev } ∧
      (o = v.monitor ∨ o = .opened) := by
  obtain ⟨w, hw⟩ : ∃ w, w = (v.healBlock (blockOf (mappedKey m))).asyncError m 64 := ⟨_, rfl⟩
  obtain ⟨i, hi⟩ := (v.healBlock (blockOf (mappedKey m))).asyncError_eq m 64
  have zeros : List.replicate 64 (0 : Byte) = bytesOf 64 0 := by decide
  have whole : v.doZero m = ((w.storeData m 64 0).ownStore m.pa m.ns).record
      (.write (mappedKey m) 64 false) := by
    rw [State.doZero, zeros, hw]
    rfl
  obtain ⟨o, ho, hmon⟩ := (w.storeData m 64 0).ownStore_eq m.pa m.ns
  obtain ⟨mem, c, wb, sys, un, hs⟩ := w.store_eq m (bytesOf 64 0)
  have same : (w.storeData m 64 0).monitor = v.monitor := by
    rw [State.storeData, hs, hw, hi]
    rfl
  refine ⟨w, o, (w.storeData m 64 0).events ++ [.write (mappedKey m) 64 false], ?_, ?_,
    same ▸ hmon⟩
  · rw [hw, hi]
    rfl
  · rw [whole, ho]
    rfl

/-- What the 64 zero bytes of `DC ZVA` leave. -/
theorem State.doZero_stored {s u v : State} (kp : KeepsRegs s v [] 0) {m : Mapped}
    (hb : v.onUtilityBus m = s.onUtilityBus m) (hm : v.mem = u.mem) :
    StoredAt s u (v.doZero m) [] m 64 0 ∧ (v.doZero m).pc = v.pc ∧
      ((v.doZero m).monitor = v.monitor ∨ (v.doZero m).monitor = .opened) := by
  obtain ⟨w, o, ev, hw, h, hmon⟩ := v.doZero_eq m
  have kept : KeepsRegs s w [] 0 := by
    rw [hw]
    exact ⟨kp.general, kp.pointers, kp.pstate, kp.vectors, kp.special⟩
  obtain ⟨mem, c, wb, sys, un, hs⟩ := w.store_eq m (bytesOf 64 0)
  have store : w.storeData m 64 0 = _ := hs
  rw [h]
  refine ⟨.of_stores (v := w) kept (by rw [hw]; exact hb) (by rw [hw]; exact hm)
    ((w.storeData_stores m 64 0).congr rfl rfl rfl rfl rfl) ?_ ?_ ?_ ?_, ?_, ?_⟩
  · rw [store]
  · rw [store]
  · rw [store]
  · rw [store]
  · rw [store, hw]
  · exact hmon

/-- The level that traps `DC ZVA`. -/
theorem State.zvaTrap_cases (s : State) (rt : Reg) :
    (s.hcrBelow 28 = true → s.zvaTrap rt = some (s.trapDc 2 3 4 1 rt)) ∧
    (s.hcrBelow 28 = false → s.el = 0 → bit s.sctlr 14 = false →
      s.zvaTrap rt = some (s.trapDc s.syncTarget 3 4 1 rt)) ∧
    (s.hcrBelow 28 = false → (s.el = 0 → bit s.sctlr 14 = true) → s.zvaTrap rt = none) := by
  refine ⟨fun h => if_pos h, fun h h0 hz => ?_, fun h hz => ?_⟩
  · rw [State.zvaTrap, if_neg (by simp [h]), if_pos (by simp [h0, hz])]
  · rw [State.zvaTrap, if_neg (by simp [h]), if_neg]
    rw [Bool.and_eq_true, decide_eq_true_iff]
    rintro ⟨h0, h1⟩
    simp [hz h0] at h1

/-- A bit of `HCR_EL2` that acts below EL2. -/
theorem State.hcrBelow_iff {s : State} {i : Nat} :
    s.hcrBelow i = true ↔ s.el2Enabled = true ∧ s.el < 2 ∧ bit s.hcr i = true := by
  rw [State.hcrBelow, Bool.and_eq_true, Bool.and_eq_true, decide_eq_true_iff, and_assoc]

theorem State.hcrBelow_eq_false {s : State} {i : Nat}
    (h : s.el < 2 → s.el2Enabled = false ∨ bit s.hcr i = false) : s.hcrBelow i = false := by
  rw [← Bool.not_eq_true, State.hcrBelow_iff]
  rintro ⟨h1, h2, h3⟩
  rcases h h2 with h | h <;> simp_all

/-- `DC ZVA` that is not trapped and meets no fault. -/
theorem execDcZva_completes {s s1 : State} {m : Mapped} {rt : Reg} (ht : s.zvaTrap rt = none)
    (ha : AddressOk s (zvaReq (s.xr rt))) (hg : Granted s (zvaReq (s.xr rt)) .write s1 m)
    (hu : Unhindered s1 (zvaReq (s.xr rt)) (blockStart m)) (hn : s.hasNext) :
    execDcZva rt s = .next (((s1.showPbha (s.xr rt) (blockStart m)).advanced).doZero
      (blockStart m)) := by
  have same := (State.translate_same hg.translated).trans
    (s1.showPbha_same (s.xr rt) (blockStart m))
  have next : (s1.showPbha (s.xr rt) (blockStart m)).hasNext := by
    rw [State.hasNext, same.pc]
    exact hn
  rw [execDcZva, ht]
  dsimp only
  rw [State.zeroBlock, ha.preCheck]
  dsimp only
  rw [hg.xlate]
  dsimp only
  rw [hu.afterXlate]
  exact State.advanceWith_next_of_hasNext (fun t => t.doZero (blockStart m)) next

/-- Settles O17, from the traps and the store of zeros. -/
theorem dcZvaZeroesBlock : Obligations.DcZvaZeroesBlock := by
  refine fun s rt => ⟨fun hl he ht => ?_, fun h0 he hz => ?_, fun s1 m he hz hend hx hp hu hn hwf =>
    ?_⟩
  · have trapped := (s.zvaTrap_cases rt).1 (State.hcrBelow_iff.2 ⟨he, hl, ht⟩)
    refine ⟨s.trapDc 2 3 4 1 rt, ?_, s.trapDc_took 2 3 4 1 rt rfl⟩
    change execDcZva rt s = _
    rw [execDcZva, trapped]
  · have trapped := (s.zvaTrap_cases rt).2.1 (State.hcrBelow_eq_false fun _ => he) h0 hz
    refine ⟨s.trapDc s.syncTarget 3 4 1 rt, ?_, s.trapDc_took s.syncTarget 3 4 1 rt rfl⟩
    change execDcZva rt s = _
    rw [execDcZva, trapped]
  · have untrapped := (s.zvaTrap_cases rt).2.2 (State.hcrBelow_eq_false he) hz
    have address : AddressOk s (zvaReq (s.xr rt)) := ⟨by simp [zvaReq], by simp [zvaReq], hend⟩
    have granted : Granted s (zvaReq (s.xr rt)) .write s1 m := ⟨hx, hp⟩
    have same := (State.translate_same hx).trans (s1.showPbha_same (s.xr rt) (blockStart m))
    have kept : KeepsRegs s (s1.showPbha (s.xr rt) (blockStart m)).advanced [] 0 := .of_same same
    obtain ⟨stored, hpc, hmon⟩ := State.doZero_stored (u := s1) kept
      (same.onUtilityBus (blockStart m)) rfl
    refine ⟨_, execDcZva_completes untrapped address granted hu hn, ?_, ?_, fun hoff => ?_,
      stored.bus⟩
    · rw [hpc]
      exact congrArg (· + 4) same.pc
    · exact hmon.imp_left fun h => h.trans same.monitor
    · obtain ⟨keeps, hmem⟩ := stored.memory hoff
      have wf1 := State.translate_wf hx hwf
      rw [mappedKey_blockStart] at hmem
      refine ⟨fun i hi => ?_, .of_writeLE wf1 hmem, keeps⟩
      rw [hmem, Memory.read_writeLE wf1 _ _ _ i hi]
      simp

/-! DC CISW (R414) -/

/-- No line that is kept stands at the place that is dropped. -/
theorem lineAt_of_mem_dropPlace {l : List CacheLine} {set way : Nat} {e : CacheLine}
    (h : e ∈ dropPlace l set way) : lineAt e set way = false := by
  simpa using (List.mem_filter.1 h).2

/-- The L1 data cache after its place is cleaned. -/
theorem State.cleanL1_l1d (s : State) (set way : Nat) :
    (s.cleanL1 set way).l1d = dropPlace s.cache.l1d set way := by
  unfold State.cleanL1
  dsimp only
  split <;> rfl

/-- The lines of the named level after a clean by set and way. -/
theorem State.doCleanSetWay_lines (s : State) (set way : Nat) :
    (s.doCleanSetWay 0 set way).cache.l1d = dropPlace s.cache.l1d set way ∧
      (s.doCleanSetWay 1 set way).cache.l2 = dropPlace s.cache.l2 set way :=
  ⟨s.cleanL1_l1d set way, rfl⟩

/-- Settles O18, by the branches of `DC CISW`. -/
theorem dcCiswCleansPlace : Obligations.DcCiswCleansPlace := by
  refine fun s rt => ⟨fun h0 => ?_, fun h1 he ht => ?_, fun h0 ht hw => ?_,
    fun level set way h0 ht hw hn => ?_⟩
  · exact ⟨_, if_pos h0, s.undefined_took⟩
  · have trapped : s.hcrBelow 22 = true := State.hcrBelow_iff.2 ⟨he, by rw [h1]; decide, ht⟩
    exact ⟨_, (if_neg (by rw [h1]; decide)).trans (if_pos trapped), s.trapDc_took 2 0 14 2 rt rfl⟩
  · change execDcCisw rt s = _
    rw [execDcCisw, if_neg h0, if_neg (by simp [ht]), hw]
  · have done : execDcCisw rt s = .next (s.advanced.doCleanSetWay level set way) := by
      rw [execDcCisw, if_neg h0, if_neg (by simp [ht]), hw]
      exact State.advanceWith_next_of_hasNext (fun t => t.doCleanSetWay level set way) hn
    obtain ⟨c, irq, ev, same⟩ := s.advanced.doCleanSetWay_same level set way
    obtain ⟨l1, l2⟩ := s.advanced.doCleanSetWay_lines set way
    refine ⟨_, done, ?_, ?_, ?_, ?_, ?_, ?_⟩
    · rw [same]
      rfl
    · rw [same]
      exact ⟨fun _ _ => rfl, rfl, rfl, rfl, rfl⟩
    · rw [same]
      rfl
    · rw [same]
      rfl
    · rintro rfl e hl
      exact lineAt_of_mem_dropPlace (l1 ▸ hl)
    · rintro rfl e hl
      exact lineAt_of_mem_dropPlace (l2 ▸ hl)

/-! DC IVAC (R416) -/

/-- An invalidation changes memory and the caches alone. -/
theorem State.invalidateBlock_eq (s : State) (b : Nat) (clean : Bool) :
    ∃ mem c, s.invalidateBlock b clean = { s with mem := mem, cache := c } := by
  unfold State.invalidateBlock
  split
  · exact ⟨s.mem, _, rfl⟩
  · split
    · exact ⟨_, _, rfl⟩
    · exact ⟨s.mem, _, rfl⟩

/-- What a dirty line keeps of the memory below it is no longer than the line. -/
theorem ExclusiveCaches.dirtyBelow_length {c : Caches} (h : ExclusiveCaches c) {b : Nat}
    {bs : List Byte} (hb : c.dirtyBelow b = some bs) : bs.length ≤ 64 := by
  unfold Caches.dirtyBelow at hb
  split at hb
  · next e he => exact Option.some.inj hb ▸ h.below e (List.mem_of_find?_eq_some he)
  · cases hb

/-- `DC IVAC` is an invalidation, in a state that differs in the errors of the block, the pending
SError and the record of the accesses. -/
theorem State.doInvalidate_eq (v : State) (m : Mapped) :
    ∃ (w : State) (clean : Bool) (irq : IrqLines) (ev : List MemEvent),
      w = { v.healBlock (blockOf (mappedKey m)) with irq := irq, events := ev } ∧
        v.doInvalidate m = w.invalidateBlock (blockOf (mappedKey m)) clean := by
  obtain ⟨i, hi⟩ := v.asyncError_eq (blockStart m) 64
  refine ⟨_, v.el == 1 && v.hcrBelow 0, i, v.events ++ [.disturbance], rfl, ?_⟩
  rw [State.doInvalidate, hi]
  rfl

/-- What `DC IVAC` leaves. -/
theorem State.doInvalidate_leaves (v : State) (m : Mapped) :
    (∃ mem c irq poison ev, v.doInvalidate m =
      { v with mem := mem, cache := c, irq := irq, poison := poison, events := ev }) ∧
    holdsBlock (v.doInvalidate m).cache.l1d (blockOf (mappedKey m)) = false ∧
    holdsBlock (v.doInvalidate m).cache.l2 (blockOf (mappedKey m)) = false ∧
    ((v.doInvalidate m).mem = v.mem ∨ ∃ bs, v.cache.dirtyBelow (blockOf (mappedKey m)) = some bs ∧
      (v.doInvalidate m).mem = Memory.writeBytes v.mem (blockOf (mappedKey m) * 64) bs) := by
  obtain ⟨w, clean, irq, ev, hw, h⟩ := v.doInvalidate_eq m
  obtain ⟨gone1, gone2⟩ := w.invalidateBlock_gone (blockOf (mappedKey m)) clean
  obtain ⟨mem, c, hi⟩ := w.invalidateBlock_eq (blockOf (mappedKey m)) clean
  have mem := w.invalidateBlock_mem (blockOf (mappedKey m)) clean
  rw [h]
  subst hw
  exact ⟨⟨_, _, _, _, _, hi⟩, gone1, gone2, mem⟩

/-- Settles O19, from the checks of the access and the invalidation. -/
theorem dcIvacInvalidatesBlock : Obligations.DcIvacInvalidatesBlock := by
  refine fun s rt => ⟨fun h0 => ?_, fun h1 he ht => ?_,
    fun s1 m h0 ht hend hg hu hn hwf hc => ?_⟩
  · exact ⟨_, if_pos h0, s.undefined_took⟩
  · have trapped : s.hcrBelow 23 = true := State.hcrBelow_iff.2 ⟨he, by rw [h1]; decide, ht⟩
    exact ⟨_, (if_neg (by rw [h1]; decide)).trans (if_pos trapped), s.trapDc_took 2 0 6 1 rt rfl⟩
  · have address : AddressOk s (ivacReq (s.xr rt)) := ⟨by simp [ivacReq], by simp [ivacReq], hend⟩
    have same := (State.translate_same hg.translated).trans (s1.showPbha_same (s.xr rt) m)
    have next : (s1.showPbha (s.xr rt) m).hasNext := by
      rw [State.hasNext, same.pc]
      exact hn
    have done : execDcIvac rt s =
        .next ((s1.showPbha (s.xr rt) m).advanced.doInvalidate m) := by
      rw [execDcIvac, if_neg h0, if_neg (by simp [ht]), State.access_ok address hg hu]
      exact State.advanceWith_next_of_hasNext (fun t => t.doInvalidate m) next
    have kept : KeepsRegs s (s1.showPbha (s.xr rt) m).advanced [] 0 := .of_same same
    obtain ⟨⟨mem, c, irq, poison, ev, h⟩, gone1, gone2, hmem⟩ :=
      (s1.showPbha (s.xr rt) m).advanced.doInvalidate_leaves m
    refine ⟨_, done, ?_, ?_, ?_, gone1, gone2, ?_, fun hnone => ?_⟩
    · rw [h]
      exact congrArg (· + 4) same.pc
    · rw [h]
      exact ⟨kept.general, kept.pointers, kept.pstate, kept.vectors, kept.special⟩
    · rw [h]
      exact same.monitor
    · intro k hk
      rcases hmem with hm | ⟨bs, hbs, hm⟩ <;> rw [hm]
      · rfl
      · have short := (State.translate_exclusive hg.translated hc).dirtyBelow_length hbs
        have block : blockOf (mappedKey m) * 64 = mappedKey m / 64 * 64 := rfl
        exact Memory.read_writeBytes_of_out (State.translate_wf hg.translated hwf) (by omega)
    · rcases hmem with hm | ⟨bs, hbs, hm⟩
      · exact hm
      · exact absurd (hnone.symm.trans hbs) (by simp)

/-! Prefetches (R411) -/

/-- A prefetch leaves what its walk and an allocation in the caches change. -/
theorem State.doPrefetch_eq (s : State) (prfop : BitVec 5) (va : Word) :
    ∃ bus c, s.doPrefetch prfop va = { s with bus := bus, cache := c } := by
  unfold State.doPrefetch
  split
  · exact ⟨s.bus, s.cache, rfl⟩
  · split
    · next s1 m hx =>
      obtain ⟨tlb, bus, c, rfl, -⟩ := State.translateAhead_ok hx
      dsimp only
      split <;> exact ⟨_, _, rfl⟩
    · next s1 f hx =>
      obtain ⟨bus, c, rfl, -⟩ := State.translateFor_fault hx
      exact ⟨bus, c, rfl⟩
    · exact ⟨s.bus, s.cache, rfl⟩

/-- A prefetch with no SP alignment fault. -/
theorem State.prefetch_leaves {s : State} {sp : Bool} (h : sp = true → s.spMisaligned = false)
    (hn : s.hasNext) (prfop : BitVec 5) (va : Word) :
    ∃ t, s.prefetch prfop sp va = .next t ∧ t.pc = s.pc + 4 ∧ KeepsRegs s t [] 0 ∧ t.mem = s.mem ∧
      t.tlb = s.tlb ∧ t.monitor = s.monitor := by
  have aligned : ¬ (sp && s.spMisaligned) = true := by
    rw [Bool.and_eq_true]
    rintro ⟨h1, h2⟩
    simp [h h1] at h2
  obtain ⟨bus, c, hp⟩ := s.advanced.doPrefetch_eq prfop va
  refine ⟨_, (if_neg aligned).trans (State.advanceWith_next_of_hasNext _ hn), ?_⟩
  rw [hp]
  exact ⟨rfl, ⟨fun _ _ => rfl, rfl, rfl, rfl, rfl⟩, rfl, rfl, rfl⟩

/-- A prefetch on a misaligned stack pointer. -/
theorem State.prefetch_misaligned {s : State} (h : s.spMisaligned = true) (prfop : BitVec 5)
    (va : Word) : s.prefetch prfop true va = .next s.spAlignmentFault := if_pos (by simp [h])

/-- The register form has an offset exactly where bit 1 of `option` is set (R272). -/
theorem State.extendedOffset_isSome (s : State) (rm : Reg) (option : BitVec 3) (sh : BitVec 1) :
    (s.extendedOffset rm option sh).isSome = option.getLsbD 1 := by
  have small := option.isLt
  rw [BitVec.getLsbD, State.extendedOffset]
  generalize option.toNat = n at small ⊢
  interval_cases n <;> rfl

/-- The register form of PRFM with an allocated extension is a prefetch. -/
theorem execPrfmReg_of_allocated {option : BitVec 3} (h : option.getLsbD 1 = true)
    (prfop : BitVec 5) (rn rm : Reg) (sh : BitVec 1) (s : State) :
    ∃ va, execPrfmReg prfop rn rm option sh s = s.prefetch prfop (rn == 31) va := by
  obtain ⟨off, hoff⟩ := Option.isSome_iff_exists.1 ((s.extendedOffset_isSome rm option sh).trans h)
  exact ⟨_, by rw [execPrfmReg, hoff]⟩

/-- Settles O40: every form is `State.prefetch` at its address, or the unallocated extension. -/
theorem prefetchChangesNothing : Obligations.PrefetchChangesNothing := by
  intro s prfop rn rm imm12 imm9 imm19 option sh i hn
  refine ⟨fun hi => ?_, fun ho => ?_⟩
  · rcases hi with rfl | ⟨hsp, hi⟩
    · exact State.prefetch_leaves (sp := false) nofun hn prfop _
    · have base : (rn == 31) = true → s.spMisaligned = false := fun h => hsp (beq_iff_eq.1 h)
      rcases hi with rfl | rfl | ⟨rfl, ho⟩
      · exact State.prefetch_leaves base hn prfop _
      · exact State.prefetch_leaves base hn prfop _
      · obtain ⟨va, hva⟩ := execPrfmReg_of_allocated ho prfop rn rm sh s
        obtain ⟨t, ht⟩ := State.prefetch_leaves base hn prfop va
        exact ⟨t, hva.trans ht.1, ht.2⟩
  · have none : s.extendedOffset rm option sh = none := by
      rw [← Option.isNone_iff_eq_none, ← Option.not_isSome, s.extendedOffset_isSome, ho]
      rfl
    refine ⟨s.undefined, ?_, s.undefined_took⟩
    change execPrfmReg prfop rn rm option sh s = _
    rw [execPrfmReg, none]

end Sys2Proof.Machine
end

section
/-! Proofs of the statements about the aborts of data accesses (R251, R396, R454, R456). -/

namespace Sys2Proof.Machine

/-! What stops an access before its translation -/

theorem State.access_of_preCheck {s : State} {r : Req} {o : Out} (h : s.preCheck r = some o)
    (k : AccessKind) : s.access r k = .stop o := by
  rw [State.access, h]

theorem State.loadExclusive_of_preCheck {s : State} {n : Nat} {rn : Reg} {o : Out}
    (h : s.preCheck (s.baseReq rn n true false) = some o) (acq : Bool)
    (put : State → Data → State) : s.loadExclusive n acq rn put = o := by
  rw [State.loadExclusive, State.access_of_preCheck h]
  rfl

theorem State.storeExclusive_of_preCheck {s : State} {n : Nat} {rn : Reg} {o : Out}
    (h : s.preCheck (s.baseReq rn n false true) = some o) (rel : Bool) (rs : Reg) (data : Data) :
    s.storeExclusive n rel rs rn data = o := by
  rw [State.storeExclusive, State.access_of_preCheck h]

theorem State.compareSwap_of_preCheck {s : State} {n : Nat} {rn : Reg} {o : Out}
    (h : s.preCheck (s.baseReq rn n true true) = some o) (acq rel : Bool) (cmp new : Data)
    (put : State → Data → State) : s.compareSwap n acq rel rn cmp new put = o := by
  rw [State.compareSwap, h]

theorem atomicUpdate_of_preCheck {s : State} {sz : Size} {rn : Reg} {o : Out}
    (h : s.preCheck (s.baseReq rn sz.bytes true true) = some o) (op : AtomicOp) (acq rel : Bool)
    (rs rt : Reg) : atomicUpdate op sz acq rel rs rt rn s = o := by
  rw [atomicUpdate, State.accessBoth, h]
  rfl

/-- The size of a register pair form, as the statements write it. -/
theorem two_mul_pairBytes (wide : Bool) : 2 * pairBytes wide = if wide then 16 else 8 := by
  cases wide <;> rfl

/-! SP and address alignment (R251, R456) -/

/-- A prefetch on a misaligned stack pointer takes the SP alignment fault. -/
theorem State.spAlignmentFault_took (s : State) :
    TookSync s s.spAlignmentFault s.syncTarget 0x9A000000 := s.takeSync_took _ (by decide)

/-- With a misaligned SP base the check before the translation stops the access. -/
theorem State.preCheck_sp {s : State} {r : Req} (hend : s.bigEndian = false)
    (hb : r.spBase = true) (hs : s.spMisaligned = true) :
    s.preCheck r = some (.next s.spAlignmentFault) := by
  rw [State.preCheck, if_neg (by simp [hend]), if_pos (by simp [hb, hs])]

/-- With a misaligned address it stops it too, after the stack pointer. -/
theorem State.preCheck_misaligned {s : State} {r : Req} (hend : s.bigEndian = false)
    (hs : r.spBase = true → s.spMisaligned = false) (ha : r.aligned = true)
    (hm : r.va.toNat % r.size ≠ 0) : s.preCheck r = some (.next (s.alignmentFault r)) := by
  have pointer : ¬ (r.spBase && s.spMisaligned) = true := by
    rw [Bool.and_eq_true]
    rintro ⟨h1, h2⟩
    simp [hs h1] at h2
  rw [State.preCheck, if_neg (by simp [hend]), if_neg pointer, if_pos (by simp [ha, hm])]

/-- The syndrome of an abort, from its parts. -/
theorem esrWord_abort (same : Bool) (st : BitVec 6) (wnr s1ptw cm : Bool) :
    esrWord (0x24 + (if same then 1 else 0)) (abortIss st wnr s1ptw cm false) =
      (if same then 0x96000000 else 0x92000000) ||| st.setWidth 64 |||
        (if s1ptw then 0x80 else 0) ||| (if wnr then 0x40 else 0) |||
        (if cm then 0x100 else 0) := by
  have flags : ((flagAt wnr 6 ||| flagAt s1ptw 7 ||| flagAt cm 8 ||| flagAt false 9).setWidth
      25).setWidth 64 = (if s1ptw then 0x80#64 else 0) ||| (if wnr then 0x40 else 0) |||
        (if cm then 0x100 else 0) := by
    cases wnr <;> cases s1ptw <;> cases cm <;> rfl
  have head : (BitVec.ofNat 64 (0x24 + (if same then 1 else 0)) <<< 26) ||| flagAt true 25 =
      if same then 0x96000000#64 else 0x92000000 := by
    cases same <;> rfl
  have status : (st.setWidth 25).setWidth 64 = st.setWidth 64 := by
    have := st.isLt
    apply BitVec.eq_of_toNat_eq
    simp only [BitVec.toNat_setWidth]
    omega
  rw [esrWord, abortIss, BitVec.setWidth_or, flags, head, status]
  simp only [BitVec.or_assoc]
  rfl

/-- The Alignment fault of an access that is no cache maintenance. -/
theorem State.alignmentFault_took (s : State) {r : Req} (hc : r.maintenance = false) :
    TookSync s (s.alignmentFault r) s.syncTarget ((if s.syncTarget = s.el then 0x96000021
        else 0x92000021) ||| (if r.stores then 0x40 else 0)) ∧
      (s.alignmentFault r).get (farOf s.syncTarget) = r.va := by
  refine s.takeAbort_took false false _ r.va 0 _ ?_
  have word := esrWord_abort (decide (s.syncTarget = s.el)) 0b100001 r.stores false false
  have target : s.abortTarget false false = s.syncTarget := rfl
  rw [hc, target]
  by_cases h : s.syncTarget = s.el <;> cases hs : r.stores <;> simp [h, hs] at word ⊢ <;>
    exact word.symm

/-- Settles O41: the checks before the translation stop every one of these accesses. -/
theorem misalignedAccessFaults : Obligations.MisalignedAccessFaults := by
  intro sz op a b wide rs rt rt2 rn s i
  refine ⟨fun prfop imm12 imm9 option sh hs hi => ?_, fun n stores hend hi => ?_⟩
  · refine ⟨s.spAlignmentFault, ?_, s.spAlignmentFault_took⟩
    rcases hi with rfl | rfl | ⟨rfl, ho⟩
    · exact State.prefetch_misaligned hs prfop _
    · exact State.prefetch_misaligned hs prfop _
    · obtain ⟨va, hva⟩ := execPrfmReg_of_allocated ho prfop 31 rs sh s
      exact hva.trans (State.prefetch_misaligned hs prfop va)
  · have stops : ∃ loads, ∀ o, s.preCheck (s.baseReq rn n loads stores) = some o →
        exec i s = o := by
      rcases hi with ⟨rfl, rfl, rfl⟩ | ⟨rfl, hne, rfl, rfl⟩ | ⟨rfl, h1, h2, rfl, rfl⟩ |
        ⟨rfl, h1, h2, h3, rfl, rfl⟩ | ⟨rfl, rfl, rfl⟩ | ⟨rfl, hrs, hrt, rfl, rfl⟩ |
        ⟨rfl, rfl, rfl⟩ | ⟨rfl, rfl, rfl⟩
      · exact ⟨true, fun o ho => (exec_loadExclOf sz a rt rn s).trans
          (State.loadExclusive_of_preCheck ho a _)⟩
      · rw [← two_mul_pairBytes]
        exact ⟨true, fun o ho => ((exec_loadExclPairOf wide a rt rt2 rn s).trans (if_neg hne)).trans
          (State.loadExclusive_of_preCheck ho a _)⟩
      · exact ⟨false, fun o ho => ((exec_storeExclOf sz a rs rt rn s).trans
          (storeExcl_of_apart h1 h2 sz a s)).trans (State.storeExclusive_of_preCheck ho a rs _)⟩
      · rw [← two_mul_pairBytes]
        exact ⟨false, fun o ho => ((exec_storeExclPairOf wide a rs rt rt2 rn s).trans
          (storeExclPair_of_apart h1 h2 h3 wide a s)).trans
          (State.storeExclusive_of_preCheck ho a rs _)⟩
      · exact ⟨true, fun o ho => (exec_casOf sz a b rs rt rn s).trans
          (State.compareSwap_of_preCheck ho a b _ _ _)⟩
      · rw [← two_mul_pairBytes]
        exact ⟨true, fun o ho => ((exec_caspOf wide a b rs rt rn s).trans
          (caspMeaning_of_even hrs hrt wide a b rn s)).trans
          (State.compareSwap_of_preCheck ho a b _ _ _)⟩
      · exact ⟨true, fun o ho => (exec_atomicOf op sz a b rs rt rn s).trans
          (atomicUpdate_of_preCheck ho op a b rs rt)⟩
      · exact ⟨true, fun o ho => (exec_storeAtomicOf op sz b rs rn s).trans
          (atomicUpdate_of_preCheck ho op false b rs 31)⟩
    obtain ⟨loads, hstop⟩ := stops
    refine ⟨fun hrn hs => ⟨_, hstop _ (State.preCheck_sp hend (beq_iff_eq.2 hrn) hs),
      s.spAlignmentFault_took⟩, fun hs hm => ?_⟩
    exact ⟨_, hstop _ (State.preCheck_misaligned hend (fun h => hs (beq_iff_eq.1 h)) rfl hm),
      s.alignmentFault_took rfl⟩

end Sys2Proof.Machine
end

section
/-! Proof of the statement about data accesses that do not translate or are not permitted (R155,
R396, R454). -/

namespace Sys2Proof.Machine

/-! The fault of one direction of an access -/

/-- A translation that fails leaves the core as it was. -/
theorem State.translate_fault_same {s s1 : State} {va : Word} {k : AccessKind} {f : MmuFault}
    (h : s.translate va k = .fault s1 f) : SameCore s s1 := by
  obtain ⟨bus, cache, rfl, walked⟩ := State.translate_fault h
  constructor
  case bad => exact walked.bad
  all_goals rfl

/-- Nothing has changed. -/
theorem SameCore.refl (s : State) : SameCore s s := by
  constructor <;> rfl

/-- The address does not translate, but for an external abort of its walk, or the access is not
permitted; `s1` is the state that has found the fault. -/
def State.faults (s : State) (r : Req) (k : AccessKind) (s1 : State) (f : MmuFault) : Prop :=
  s.translate r.va k = .fault s1 f ∧ f.kind ≠ .externalOnWalk ∨
    ∃ m, s.translate r.va k = .ok s1 m ∧ s1.permissionFault m k = some f

/-- The permission check answers permission faults. -/
theorem State.permissionFault_kind {s : State} {m : Mapped} {k : AccessKind} {f : MmuFault}
    (h : s.permissionFault m k = some f) : f.kind = .permission := by
  unfold State.permissionFault at h
  split at h
  · exact Option.some.inj h ▸ rfl
  · split at h
    · exact Option.some.inj h ▸ rfl
    · cases h

/-- Such a fault is taken. -/
theorem State.faults.xlate {s s1 : State} {r : Req} {k : AccessKind} {f : MmuFault}
    (h : s.faults r k s1 f) : s.xlate r k =
      .mmu (s1.takeMmuFault false (faultWnr r k f) r.maintenance r.va f) := by
  rcases h with ⟨hx, hk⟩ | ⟨m, hx, hp⟩
  · rw [State.xlate, hx]
    exact if_neg (by simp [hk])
  · rw [State.xlate, hx]
    dsimp only
    rw [hp]

/-- The core is as before where the fault is taken. -/
theorem State.faults.same {s s1 : State} {r : Req} {k : AccessKind} {f : MmuFault}
    (h : s.faults r k s1 f) : SameCore s s1 ∧ f.kind ≠ .externalOnWalk := by
  rcases h with ⟨hx, hk⟩ | ⟨m, hx, hp⟩
  · exact ⟨State.translate_fault_same hx, hk⟩
  · exact ⟨State.translate_same hx, by simp [State.permissionFault_kind hp]⟩

/-- The syndrome of the abort of a failed translation or permission check. -/
theorem State.takeMmuFault_took (s : State) (wnr cm : Bool) (va : Word) {f : MmuFault} {el : EL}
    (hk : f.kind ≠ .externalOnWalk) (hel : el = if f.stage2 then 2 else s.syncTarget) :
    TookSync s (s.takeMmuFault false wnr cm va f) el
        ((if el = s.el then 0x96000000 else 0x92000000) ||| f.status.setWidth 64 |||
          (if f.s1ptw then 0x80 else 0) ||| (if wnr then 0x40 else 0) |||
          (if cm then 0x100 else 0)) ∧
      (s.takeMmuFault false wnr cm va f).get (farOf el) = va ∧
      (f.stage2 = true → (s.takeMmuFault false wnr cm va f).get .hpfar_el2 =
        (f.ipa.setWidth 64 >>> 12) <<< 4) := by
  have abort : s.takeMmuFault false wnr cm va f =
      s.takeAbort false f.stage2 false (abortIss f.status wnr f.s1ptw cm false) va f.ipa :=
    if_neg (by simp [hk])
  have target : s.abortTarget f.stage2 false = el := hel ▸ rfl
  have word := esrWord_abort (decide (el = s.el)) f.status wnr f.s1ptw cm
  simp only [decide_eq_true_eq] at word
  obtain ⟨took, far⟩ := s.takeAbort_took false f.stage2
    (abortIss f.status wnr f.s1ptw cm false) va f.ipa _ rfl
  rw [target] at took far
  rw [abort]
  refine ⟨word ▸ took, far, fun h2 => ?_⟩
  rw [State.takeAbort, State.takeException_get, h2]
  rfl

/-- The direction in the syndrome (R396, R454). -/
theorem faultWnr_iff {r : Req} {k : AccessKind} (f : MmuFault) (hk : k = .read ∨ k = .write) :
    faultWnr r k f = true ↔ r.stores = true ∧ (r.loads = true → k = .write ∨
      (f.kind ≠ .translation ∧ f.kind ≠ .permission)) := by
  have direction : (k == .read) = !(decide (k = .write)) := by
    rcases hk with rfl | rfl <;> rfl
  rw [faultWnr, direction]
  by_cases hw : k = .write <;> cases r.stores <;> cases r.loads <;> simp [hw]

/-! The instructions whose access fails -/

theorem State.loadExclusive_of_fault {s t : State} {n : Nat} {rn : Reg}
    (ha : AddressOk s (s.baseReq rn n true false))
    (h : s.xlate (s.baseReq rn n true false) .read = .mmu t) (acq : Bool)
    (put : State → Data → State) : s.loadExclusive n acq rn put = .next t := by
  rw [State.loadExclusive, State.access, ha.preCheck]
  dsimp only
  rw [h]
  rfl

theorem State.compareSwap_of_readFault {s t : State} {n : Nat} {rn : Reg}
    (ha : AddressOk s (s.baseReq rn n true true))
    (h : s.xlate (s.baseReq rn n true true) .read = .mmu t) (acq rel : Bool) (cmp new : Data)
    (put : State → Data → State) : s.compareSwap n acq rel rn cmp new put = .next t := by
  rw [State.compareSwap, ha.preCheck]
  dsimp only
  rw [h]
  rfl

/-- The write half of a compare and swap whose compare holds. -/
theorem State.compareSwap_of_writeFault {s s0 t : State} {n : Nat} {rn : Reg} {m0 : Mapped}
    {cmp : Data} (ha : AddressOk s (s.baseReq rn n true true))
    (hg : Granted s (s.baseReq rn n true true) .read s0 m0)
    (h : s0.xlate (s.baseReq rn n true true) .write = .mmu t) (hc : s0.loadData m0 n = cmp)
    (acq rel : Bool) (new : Data) (put : State → Data → State) :
    s.compareSwap n acq rel rn cmp new put = .next t := by
  have writes : s0.casWrites m0 n cmp = true := by simp [State.casWrites, hc]
  rw [State.compareSwap, ha.preCheck]
  dsimp only
  rw [hg.xlate]
  dsimp only
  rw [h]
  exact if_pos writes

theorem atomicUpdate_of_readFault {s t : State} {sz : Size} {rn : Reg}
    (ha : AddressOk s (s.baseReq rn sz.bytes true true))
    (h : s.xlate (s.baseReq rn sz.bytes true true) .read = .mmu t) (op : AtomicOp) (acq rel : Bool)
    (rs rt : Reg) : atomicUpdate op sz acq rel rs rt rn s = .next t := by
  rw [atomicUpdate, State.accessBoth, ha.preCheck]
  dsimp only
  rw [h]
  rfl

theorem atomicUpdate_of_writeFault {s s0 t : State} {sz : Size} {rn : Reg} {m0 : Mapped}
    (ha : AddressOk s (s.baseReq rn sz.bytes true true))
    (hg : Granted s (s.baseReq rn sz.bytes true true) .read s0 m0)
    (h : s0.xlate (s.baseReq rn sz.bytes true true) .write = .mmu t) (op : AtomicOp)
    (acq rel : Bool) (rs rt : Reg) : atomicUpdate op sz acq rel rs rt rn s = .next t := by
  rw [atomicUpdate, State.accessBoth, ha.preCheck]
  dsimp only
  rw [hg.xlate]
  dsimp only
  rw [h]
  rfl

/-- A Store-Exclusive takes the fault, or its check fails and it fails. -/
theorem State.storeExclusive_of_fault {s t : State} {n : Nat} {rn : Reg}
    (ha : AddressOk s (s.baseReq rn n false true))
    (h : s.xlate (s.baseReq rn n false true) .write = .mmu t) (rel : Bool) (rs : Reg)
    (data : Data) :
    s.storeExclusive n rel rs rn data = .next t ∨
      (s.checkFails (s.baseReq rn n false true) = true ∧ s.storeExclusive n rel rs rn data =
        s.failStoreExclusive (s.baseReq rn n false true) rs) := by
  have access : s.access (s.baseReq rn n false true) .write = .mmu t := by
    rw [State.access, ha.preCheck]
    dsimp only
    rw [h]
  rw [State.storeExclusive, access]
  dsimp only
  split
  · next hf => exact .inr ⟨(Bool.and_eq_true _ _ ▸ hf).1, rfl⟩
  · exact .inl rfl

/-- What a failed Store-Exclusive leaves. -/
theorem State.failStoreExclusive_leaves {s : State} {r : Req} (hw : s.watchpointHit r = false)
    (hn : s.hasNext) (rs : Reg) : ∃ t, s.failStoreExclusive r rs = .next t ∧
      t.xr rs = valueOf rs 1 ∧ t.monitor = .opened ∧ t.pc = s.pc + 4 ∧ KeepsRegs s t [rs] 0 ∧
      t.mem = s.mem := by
  refine ⟨(s.advanced.setX rs 1).openMonitor, ?_, ?_, rfl, ?_, ?_, ?_⟩
  · rw [State.failStoreExclusive, if_neg (by simp [hw])]
    exact State.advanceWith_next_of_hasNext (fun t => (t.setX rs 1).openMonitor) hn
  · exact State.xr_setX_self s.advanced rs 1
  · exact State.setX_pc s.advanced rs 1
  · have kept : KeepsRegs s s.advanced [] 0 := ⟨fun _ _ => rfl, rfl, rfl, rfl, rfl⟩
    have written := kept.setX rs 1
    exact ⟨written.general, written.pointers, written.pstate, written.vectors, written.special⟩
  · exact State.setX_mem s.advanced rs 1

/-! The statement -/

/-- The abort that a fault of an access takes. -/
theorem State.faults.took {s s0 s1 : State} {r : Req} {k : AccessKind} {f : MmuFault} {el : EL}
    (h : s0.faults r k s1 f) (hs : SameCore s s0) (hk : k = .read ∨ k = .write)
    (hel : el = if f.stage2 then 2 else s.syncTarget) :
    TookSync s1 (s1.takeMmuFault false (faultWnr r k f) r.maintenance r.va f) el
        ((if el = s.el then 0x96000000 else 0x92000000) ||| f.status.setWidth 64 |||
          (if f.s1ptw then 0x80 else 0) |||
          (if r.stores = true ∧ (r.loads = true → k = .write ∨
            (f.kind ≠ .translation ∧ f.kind ≠ .permission)) then 0x40 else 0) |||
          (if r.maintenance then 0x100 else 0)) ∧
      (s1.takeMmuFault false (faultWnr r k f) r.maintenance r.va f).get (farOf el) = r.va ∧
      (f.stage2 = true → (s1.takeMmuFault false (faultWnr r k f) r.maintenance r.va f).get
        .hpfar_el2 = (f.ipa.setWidth 64 >>> 12) <<< 4) := by
  obtain ⟨same, hkind⟩ := h.same
  have whole := hs.trans same
  have took := s1.takeMmuFault_took (faultWnr r k f) r.maintenance r.va hkind (el := el)
    (by rw [hel, whole.syncTarget])
  simp only [whole.el, faultWnr_iff f hk] at took
  exact took

/-- Settles O42: each instruction ends in the fault that its translation or permission check
finds. -/
theorem failedAccessDataAbort : Obligations.FailedAccessDataAbort := by
  intro sz op a b wide rs rt rt2 rn s s0 s1 m0 i n r k f el Aborts hfault ha hel hAborts
  have fault : s0.faults r k s1 f := hfault
  have aborts (hs : SameCore s s0) (hk : k = .read ∨ k = .write) :
      Aborts (s1.takeMmuFault false (faultWnr r k f) r.maintenance r.va f) := by
    rw [hAborts]
    exact fault.took hs hk hel
  refine ⟨?_, ?_, ?_, ?_, ?_, ?_⟩
  · rintro hi rfl rfl rfl
    refine ⟨_, ?_, aborts (.refl _) (.inl rfl)⟩
    rcases hi with ⟨rfl, rfl⟩ | ⟨rfl, hne, rfl⟩
    · exact (exec_loadExclOf sz a rt rn s0).trans (State.loadExclusive_of_fault ha fault.xlate a _)
    · rw [← two_mul_pairBytes] at ha fault ⊢
      exact ((exec_loadExclPairOf wide a rt rt2 rn s0).trans (if_neg hne)).trans
        (State.loadExclusive_of_fault ha fault.xlate a _)
  · rintro hi rfl rfl rfl
    refine ⟨_, ?_, aborts (.refl _) (.inl rfl)⟩
    rcases hi with ⟨rfl, rfl⟩ | ⟨rfl, hrs, hrt, rfl⟩ | ⟨rfl, rfl⟩ | ⟨rfl, rfl⟩
    · exact (exec_casOf sz a b rs rt rn s0).trans
        (State.compareSwap_of_readFault ha fault.xlate a b _ _ _)
    · rw [← two_mul_pairBytes] at ha fault ⊢
      exact ((exec_caspOf wide a b rs rt rn s0).trans
        (caspMeaning_of_even hrs hrt wide a b rn s0)).trans
        (State.compareSwap_of_readFault ha fault.xlate a b _ _ _)
    · exact (exec_atomicOf op sz a b rs rt rn s0).trans
        (atomicUpdate_of_readFault ha fault.xlate op a b rs rt)
    · exact (exec_storeAtomicOf op sz b rs rn s0).trans
        (atomicUpdate_of_readFault ha fault.xlate op false b rs 31)
  · rintro hi rfl hg rfl
    refine ⟨_, ?_, aborts (State.translate_same hg.translated) (.inr rfl)⟩
    rcases hi with ⟨rfl, rfl, hc⟩ | ⟨rfl, hrs, hrt, rfl, hc⟩ | ⟨rfl, rfl⟩ | ⟨rfl, rfl⟩
    · exact (exec_casOf sz a b rs rt rn s).trans
        (State.compareSwap_of_writeFault ha hg fault.xlate hc a b _ _)
    · rw [← two_mul_pairBytes] at ha hg hc fault ⊢
      rw [Nat.mul_div_cancel_left _ (by decide)] at hc
      exact ((exec_caspOf wide a b rs rt rn s).trans
        (caspMeaning_of_even hrs hrt wide a b rn s)).trans
        (State.compareSwap_of_writeFault ha hg fault.xlate hc a b _ _)
    · exact (exec_atomicOf op sz a b rs rt rn s).trans
        (atomicUpdate_of_writeFault ha hg fault.xlate op a b rs rt)
    · exact (exec_storeAtomicOf op sz b rs rn s).trans
        (atomicUpdate_of_writeFault ha hg fault.xlate op false b rs 31)
  · rintro rfl ht rfl rfl rfl
    refine ⟨_, ?_, aborts (.refl _) (.inr rfl)⟩
    change execDcZva rt s0 = _
    rw [execDcZva, ht]
    dsimp only
    rw [State.zeroBlock, ha.preCheck]
    dsimp only
    rw [fault.xlate]
    rfl
  · rintro rfl h0 ht rfl rfl rfl
    refine ⟨_, ?_, aborts (.refl _) (.inr rfl)⟩
    change execDcIvac rt s0 = _
    rw [execDcIvac, if_neg h0, if_neg (by simp [ht]), State.access, ha.preCheck]
    dsimp only
    rw [fault.xlate]
    rfl
  · rintro hi rfl rfl rfl hn hw
    have runs : ∃ rel data, exec i s0 = s0.storeExclusive n rel rs rn data := by
      rcases hi with ⟨rfl, h1, h2, rfl⟩ | ⟨rfl, h1, h2, h3, rfl⟩
      · exact ⟨a, _, (exec_storeExclOf sz a rs rt rn s0).trans (storeExcl_of_apart h1 h2 sz a s0)⟩
      · rw [← two_mul_pairBytes]
        exact ⟨a, _, (exec_storeExclPairOf wide a rs rt rt2 rn s0).trans
          (storeExclPair_of_apart h1 h2 h3 wide a s0)⟩
    obtain ⟨rel, data, hrun⟩ := runs
    rcases State.storeExclusive_of_fault ha fault.xlate rel rs data with h | ⟨hf, h⟩
    · exact ⟨_, hrun.trans h, .inl (aborts (.refl _) (.inr rfl))⟩
    · obtain ⟨t, ht, hx, hmon, hpc, hkeep, hmem⟩ := State.failStoreExclusive_leaves hw hn rs
      exact ⟨t, hrun.trans (h.trans ht), .inr ⟨hf, hx, hmon, hpc, hkeep, hmem⟩⟩

end Sys2Proof.Machine
end

section
/-! Proof of the statement about watchpoints on a Store-Exclusive (R551 to R556). -/

namespace Sys2Proof.Machine

/-! The OS Lock -/

/-- With the OS Lock set debug exceptions are disabled and halting is not allowed. -/
theorem State.debugOff_of_osLock {s : State} (h : s.osLock = true) :
    s.debugEnabled = false ∧ s.haltingAllowed = false := by
  simp [State.debugEnabled, State.haltingAllowed, h]

theorem State.watchpointHit_of_osLock {s : State} (h : s.osLock = true) (r : Req) :
    s.watchpointHit r = false := by
  simp [State.watchpointHit, State.monitorDebug, State.debugOff_of_osLock h]

theorem State.breakpointHit_of_osLock {s : State} (h : s.osLock = true) :
    s.breakpointHit = false := by
  simp [State.breakpointHit, State.monitorDebug, State.debugOff_of_osLock h]

theorem State.stepping_of_osLock {s : State} (h : s.osLock = true) : s.stepping = false := by
  simp [State.stepping, State.debugOff_of_osLock h]

/-! The watchpoint of an access -/

/-- An aligned access touches the bytes from its address on. -/
theorem Req.start_of_dvd {r : Req} (h : r.va.toNat % r.size = 0) : r.start = r.va := by
  rw [Req.start, Nat.div_mul_cancel (Nat.dvd_of_mod_eq_zero h), BitVec.ofNat_toNat,
    BitVec.setWidth_eq]

/-- A watched access of a Store-Exclusive stops whatever the monitor holds, before it is made. -/
theorem State.storeExclusive_of_watched {s s1 : State} {n : Nat} {rn : Reg} {m : Mapped}
    (ha : AddressOk s (s.baseReq rn n false true))
    (hg : Granted s (s.baseReq rn n false true) .write s1 m) (hp : s1.cfg.pbhaNeutral = true)
    (ht : s1.tagFault (s.baseReq rn n false true) m = false)
    (hw : s1.watchpointHit (s.baseReq rn n false true) = true) (rel : Bool) (rs : Reg)
    (data : Data) : s.storeExclusive n rel rs rn data =
      .next (s1.watchpointTaken (s.baseReq rn n false true)) := by
  have neutral : ¬ s1.aliasRefused m = true := by simp [State.aliasRefused, hp]
  rw [State.storeExclusive, State.access, ha.preCheck]
  dsimp only
  rw [hg.xlate]
  dsimp only
  rw [State.afterXlate, if_neg neutral, if_neg (by simp [ht]), if_pos hw]

/-- The Watchpoint exception of an aligned store: its syndrome, and a byte of the access in FAR. -/
theorem State.watchpointException_took (s : State) {r : Req} (hs : r.stores = true)
    (hm : r.maintenance = false) (ha : r.va.toNat % r.size = 0) (hn : 0 < r.size) :
    TookSync s (s.watchpointException r) s.debugTarget
        (if s.debugTarget = s.el then 0xD6000062 else 0xD2000062) ∧
      ∃ k < r.size, (s.watchpointException r).get (farOf s.debugTarget) =
        r.va + BitVec.ofNat 64 k := by
  have syndrome : esrWord (if s.debugTarget = s.el then 0x35 else 0x34)
      (abortIss 0b100010 r.stores false r.maintenance false) =
        if s.debugTarget = s.el then 0xD6000062 else 0xD2000062 := by
    rw [hs, hm]
    split <;> decide
  refine ⟨syndrome ▸ TookSync.of_entry s _ _ _ none,
    (s.watchedByte r).getD 0 % r.size, Nat.mod_lt _ hn,
    (takeException_far s _ _ _ _ _ _).trans ?_⟩
  rw [Req.start_of_dvd ha]

/-- Settles O43, from `State.storeExclusive_of_watched`. -/
theorem watchpointStopsStoreExclusive : Obligations.WatchpointStopsStoreExclusive := by
  rintro sz rel rs rt rn s s1 m r h1 h2 rfl ha hg hp ht
  have same := State.translate_same hg.translated
  have stops (hw : s1.watchpointHit (s.baseReq rn sz.bytes false true) = true) :
      exec (Instr.storeExclOf sz rel rs rt rn) s =
        .next (s1.watchpointTaken (s.baseReq rn sz.bytes false true)) :=
    ((exec_storeExclOf sz rel rs rt rn s).trans (storeExcl_of_apart h1 h2 sz rel s)).trans
      (State.storeExclusive_of_watched ha hg (same.cfg ▸ hp) ht hw rel rs _)
  refine ⟨fun hl => ⟨?_, State.breakpointHit_of_osLock hl, State.stepping_of_osLock hl⟩,
    fun hw hh => ?_, fun hw hh => ?_⟩
  · exact State.watchpointHit_of_osLock (same.osLock.trans hl) _
  · rw [stops hw, State.watchpointTaken, if_pos (same.haltingAllowed.trans hh)]
  · have positive : 0 < sz.bytes := by cases sz <;> decide
    have taken := s1.watchpointException_took (r := s.baseReq rn sz.bytes false true) rfl rfl
      (ha.aligned rfl) positive
    rw [same.debugTarget, same.el] at taken
    refine ⟨_, ?_, taken⟩
    rw [stops hw, State.watchpointTaken, if_neg (by simp [same.haltingAllowed, hh])]

end Sys2Proof.Machine
end

section
/-! Proof of the statement about what a translation changes (R151 to R221). -/

namespace Sys2Proof.Machine

/-- Settles O55, from `State.translateFor_ok`. -/
theorem translationChangesOnlyTranslationState :
    Obligations.TranslationChangesOnlyTranslationState := by
  intro s s1 va k m ahead hwf h
  obtain ⟨tlb, bus, mem, cache, rfl, walked, hmem⟩ := State.translateFor_ok h
  refine ⟨⟨fun _ _ => rfl, rfl, rfl, rfl, rfl⟩, rfl, rfl, rfl, walked.l1i, walked.bad,
    walked.exclusive, ?_, ?_⟩
  · change Memory.wf mem
    rcases hmem with rfl | ⟨-, w, -, rfl⟩
    · exact hwf
    · exact writeUpdates_wf _ hwf
  · change mem = s.mem ∨ _
    rcases hmem with h | ⟨hahead, w, hw, rfl⟩
    · exact .inl h
    · exact .inr ⟨hahead, w, hw, fun a ha =>
        writeUpdates_read _ a (fun u hu => ha u (State.updatesOf_sub hu)) hwf⟩

end Sys2Proof.Machine
end

section
/-! Proofs of the statements about other agents and the trace (R376, R560 to R568). -/

namespace Sys2Proof.Machine

/-! A write of another agent -/

/-- The blocks that a write of `n` bytes at `key` touches, as it takes them from the core. -/
def blocksOf (key n b : Nat) : Bool := key / 64 ≤ b && b * 64 < key + n

theorem blocksOf_of_touch {key n b : Nat} (h1 : key < b * 64 + 64) (h2 : b * 64 < key + n) :
    blocksOf key n b = true := by
  simp only [blocksOf, Bool.and_eq_true, decide_eq_true_eq]
  omega

theorem blocksOf_of_apart {key n b : Nat} (h : key + n ≤ b * 64 ∨ b * 64 + 64 ≤ key) :
    blocksOf key n b = false := by
  simp only [blocksOf, Bool.and_eq_false_iff, decide_eq_false_iff_not]
  omega

/-- The monitor and the event register when other agents take blocks, among them the one that the
monitor holds or not. -/
theorem State.loseBlocks_of_monitorBlock {s : State} {b : Nat} (h : s.monitorBlock = some b)
    (taken : Nat → Bool) : s.loseBlocks taken =
      if taken b then { s with monitor := .opened, eventReg := true } else s := by
  rw [State.loseBlocks, h]

/-- What a write of another agent leaves of the core, and its bytes in memory. -/
theorem State.remoteWrite_leaves (s : State) (key : Nat) (bytes : List Byte) :
    (s.remoteWrite key bytes).x = s.x ∧ (s.remoteWrite key bytes).pc = s.pc ∧
      (s.remoteWrite key bytes).sleep.lowPower = s.sleep.lowPower ∧
      (s.remoteWrite key bytes).mem = Memory.writeBytes s.mem key bytes := by
  have awake : s.serve.sleep.lowPower = s.sleep.lowPower := by
    unfold State.serve
    split <;> rfl
  unfold State.remoteWrite
  dsimp only
  rw [State.loseBlocks_eq]
  refine ⟨?_, ?_, awake, ?_⟩ <;>
    · rw [s.serve_eq]
      rfl

/-- What it leaves of the monitor and the event register, where the monitor holds a block. -/
theorem State.remoteWrite_monitor {s : State} {b : Nat} (h : s.monitorBlock = some b) (key : Nat)
    (bytes : List Byte) :
    ((s.remoteWrite key bytes).monitor, (s.remoteWrite key bytes).eventReg) =
      if blocksOf key bytes.length b then (.opened, true) else (s.monitor, s.eventReg) := by
  have held : (s.serve.writeMem key bytes).monitorBlock = some b := by
    rw [s.serve_eq]
    exact h
  change (((s.serve.writeMem key bytes).loseBlocks (blocksOf key bytes.length)).monitor,
    ((s.serve.writeMem key bytes).loseBlocks (blocksOf key bytes.length)).eventReg) = _
  rw [State.loseBlocks_of_monitorBlock held]
  split
  · rfl
  · rw [s.serve_eq]
    rfl

/-- Settles O52, from the two. -/
theorem remoteWriteOpensMonitor : Obligations.RemoteWriteOpensMonitor := by
  intro s key b bytes rest hi hlimit hb hwf
  have handled : handleEvent (.remoteWrite key bytes) { s.tick with inbox := rest } =
      .next (State.remoteWrite { s.tick with inbox := rest } key bytes) := if_pos hlimit
  have held : State.monitorBlock { s.tick with inbox := rest } = some b := by
    rw [State.tick_eq]
    exact hb
  obtain ⟨hx, hpc, hsleep, hmem⟩ := State.remoteWrite_leaves { s.tick with inbox := rest } key bytes
  have monitor := State.remoteWrite_monitor held key bytes
  generalize State.remoteWrite { s.tick with inbox := rest } key bytes = t at *
  have mem : t.mem = Memory.writeBytes s.mem key bytes := hmem.trans (s.tick_mem ▸ rfl)
  refine ⟨t, (step_of_event hi).trans handled, hx.trans s.tick_x, hpc.trans s.tick_pc,
    hsleep.trans (s.tick_sleep ▸ rfl), fun i => ?_, fun k hk => ?_, ?_, fun hk => ?_⟩
  · rw [mem, Memory.read_writeBytes _ hwf, if_pos (Nat.le_add_right key i), Nat.add_sub_cancel_left]
  · rw [mem]
    exact Memory.read_writeBytes_of_out hwf hk
  · rintro ⟨h1, h2, -⟩
    rw [if_pos (blocksOf_of_touch h1 h2)] at monitor
    exact Prod.mk.inj monitor
  · rw [if_neg (by simp [blocksOf_of_apart hk])] at monitor
    obtain ⟨h1, h2⟩ := Prod.mk.inj monitor
    exact ⟨h1.trans s.tick_monitor, h2.trans s.tick_eventReg⟩

/-! The trace FIFO -/

/-- An element that the filters do not pass is not traced. -/
theorem State.traceP0_of_stopped {s : State} (h : s.tracePasses = false) (e : TraceElem) :
    s.traceP0 e = s := if_neg (by simp [h])

/-- While the overflow is signalled nothing enters. -/
theorem State.traceP0_of_overflow {s : State} (h : s.trace.overflow = true) (e : TraceElem) :
    s.traceP0 e = s := if_neg (by simp [h])

/-- With room an element that passes enters, and the overflow tells that the FIFO is then full. -/
theorem State.traceP0_of_room {s : State} (hp : s.tracePasses = true)
    (ho : s.trace.overflow = false) (hr : s.trace.fifo.length < s.cfg.traceFifoDepth)
    (e : TraceElem) : (s.traceP0 e).trace = { s.trace with
      fifo := s.trace.fifo ++ [e]
      overflow := s.cfg.traceFifoDepth ≤ s.trace.fifo.length + 1 } := by
  rw [State.traceP0, if_pos (by simp [hp, ho]), if_pos hr]

/-- A full FIFO signals the overflow. -/
theorem State.traceP0_of_full {s : State} (hp : s.tracePasses = true)
    (hr : s.cfg.traceFifoDepth ≤ s.trace.fifo.length) (e : TraceElem) :
    (s.traceP0 e).trace = { s.trace with overflow := true } := by
  cases ho : s.trace.overflow with
  | true => rw [State.traceP0_of_overflow ho, ← ho]
  | false => rw [State.traceP0, if_pos (by simp [hp, ho]), if_neg (Nat.not_lt.2 hr)]

/-- A drain changes the trace alone. -/
theorem State.traceDrain_eq (s : State) : ∃ tr, s.traceDrain = { s with trace := tr } := by
  unfold State.traceDrain
  dsimp only
  split
  · exact ⟨s.trace, rfl⟩
  · split
    · exact ⟨_, rfl⟩
    · split
      · exact ⟨_, rfl⟩
      · exact ⟨_, rfl⟩
      · exact ⟨s.trace, rfl⟩

/-- What a drain leaves of the trace with the TRBE disabled and enabled. -/
theorem State.traceDrain_trace {s : State} (h : s.power = .on) {tr : TraceUnit}
    (htr : tr = { s.trace with fifo := [], overflow := false }) :
    (s.trbeOn = false → s.traceDrain.trace = { tr with sent := tr.sent ++ s.trace.fifo }) ∧
      (s.trbeOn = true →
        s.traceDrain.trace = { tr with accepted := tr.accepted ++ s.trace.fifo } ∨
          s.traceDrain.trace = tr ∨ s.traceDrain.trace = s.trace) := by
  have on : ¬ (!s.isOn) = true := by simp [State.isOn, h]
  subst htr
  unfold State.traceDrain
  dsimp only
  rw [if_neg on]
  refine ⟨fun ht => ?_, fun ht => ?_⟩
  · rw [if_pos (by simp [ht])]
  · rw [if_neg (by simp [ht])]
    split
    · exact .inl rfl
    · exact .inr (.inl rfl)
    · exact .inr (.inr rfl)

/-- Settles O54, from the cases of `traceP0` and of `traceDrain`. -/
theorem traceFifoOverflows : Obligations.TraceFifoOverflows := by
  intro s e
  refine ⟨fun hoff => State.traceP0_of_stopped (by simp [State.tracePasses, hoff]) e,
    fun hp => State.traceP0_of_stopped hp e, fun _ ho hr => ?_, fun _ hr => ?_,
    fun ho => by rw [State.traceP0_of_overflow ho], ?_⟩
  · cases hp : s.tracePasses with
    | false => exact .inl ⟨rfl, State.traceP0_of_stopped hp e⟩
    | true =>
      have entered := State.traceP0_of_room hp ho hr e
      refine .inr ⟨rfl, by rw [entered], ?_⟩
      rw [entered]
      simp only [decide_eq_true_eq, List.length_append, List.length_singleton]
      omega
  · cases hp : s.tracePasses with
    | false => exact .inl ⟨rfl, State.traceP0_of_stopped hp e⟩
    | true => exact .inr ⟨rfl, State.traceP0_of_full hp hr e⟩
  · rintro rest tr out hi hon htr rfl
    obtain ⟨x, hx⟩ := State.traceDrain_eq { s.tick with inbox := rest }
    obtain ⟨hbus, htrbe⟩ := State.traceDrain_trace (s := { s.tick with inbox := rest })
      (s.tick_power.trans hon) htr
    have other : ({ s.tick with inbox := rest, trace := x } : State).pc = s.pc ∧
        ({ s.tick with inbox := rest, trace := x } : State).x = s.x ∧
        ({ s.tick with inbox := rest, trace := x } : State).mem = s.mem :=
      ⟨s.tick_pc, s.tick_x, s.tick_mem⟩
    exact ⟨_, step_of_event hi, by rw [hx]; exact other.1, by rw [hx]; exact other.2.1,
      by rw [hx]; exact other.2.2, hbus, htrbe⟩

end Sys2Proof.Machine
end

section
/-! Proofs of the statements about resets (R600 to R605). -/

namespace Sys2Proof.Machine

/-! System registers after a reset -/

/-- A register that the reset keeps. -/
theorem State.resetTo_get_kept (s : State) {k : ResetKind} {r : SysReg} (h : k.keeps r = true) :
    (s.resetTo k).get r = s.get r :=
  (s.resetTo_get k r).trans (if_pos h)

/-- A register that the reset does not keep: what is stated of it, over a free value. -/
theorem State.resetTo_get_stated (s : State) {k : ResetKind} {r : SysReg}
    (h : k.keeps r = false) :
    (s.resetTo k).get r = k.stated s.cfg r (s.drawWord .resetValue (2000 + r.idx.val)) :=
  (s.resetTo_get k r).trans (if_neg (by simp [h]))

/-- A Warm reset keeps the debug, trace and RAS registers (R602). -/
theorem keeps_warm {r : SysReg}
    (h : r.info.group = .debug ∨ r.info.group = .trace ∨ r.info.group = .ras) :
    ResetKind.warm.keeps r = true := by
  rcases h with h | h | h <;> simp [ResetKind.keeps, h]

/-- A bit that is masked away is clear. -/
theorem bit_and_not (w a : Word) (i : Nat) (h : bit a i = true) : bit (w &&& ~~~a) i = false := by
  unfold bit at h ⊢
  have hi : i < 64 := BitVec.lt_of_getLsbD h
  simp [h, hi]

/-! Where the core starts (R605) -/

/-- The program counter, the level and the controls of the MMU and the caches after a reset. -/
structure StartsAtEl3 (t : State) : Prop where
  legal : t.pstate.el = 3 ∧ t.pstate.nRW = false
  masked : t.pstate.d = true ∧ t.pstate.a = true ∧ t.pstate.i = true ∧ t.pstate.f = true
  pstate : t.pstate.sp = true ∧ t.pstate.il = false ∧ t.pstate.ss = false
  pc : t.pc = t.cfg.resetVector.setWidth 64
  off : bit (t.get .sctlr_el3) 0 = false ∧ bit (t.get .sctlr_el3) 2 = false ∧
    bit (t.get .sctlr_el3) 12 = false

theorem State.resetWith_starts (cfg : Config) : StartsAtEl3 (State.resetWith cfg) where
  legal := ⟨rfl, rfl⟩
  masked := ⟨rfl, rfl, rfl, rfl⟩
  pstate := ⟨rfl, rfl, rfl⟩
  pc := rfl
  off := by
    have value : (State.resetWith cfg).get .sctlr_el3 = 0x00C50838 :=
      State.resetWith_get cfg .sctlr_el3
    rw [value]
    decide

theorem State.resetTo_starts (s : State) (k : ResetKind) : StartsAtEl3 (s.resetTo k) where
  legal := ⟨rfl, rfl⟩
  masked := ⟨rfl, rfl, rfl, rfl⟩
  pstate := ⟨rfl, rfl, rfl⟩
  pc := rfl
  off := by
    have lost : k.keeps .sctlr_el3 = false := by cases k <;> rfl
    rw [s.resetTo_get_stated lost]
    exact ⟨bit_and_not _ _ _ (by decide), bit_and_not _ _ _ (by decide),
      bit_and_not _ _ _ (by decide)⟩

/-- Settles O50, from what the two resets set. -/
theorem resetStartsAtEl3 : Obligations.ResetStartsAtEl3 := by
  intro cfg s t h
  have starts : StartsAtEl3 t := by
    rcases h with rfl | rfl | rfl
    · exact State.resetWith_starts cfg
    · exact s.resetTo_starts .cold
    · exact s.resetTo_starts .warm
  have secure : t.secure = true := by simp [State.secure, State.el, starts.legal.1]
  have address : t.readSys .rvbar_el3 = t.pc := starts.pc.symm
  refine ⟨starts.legal.1, starts.legal.2, secure, starts.masked, starts.pstate.1, starts.pstate.2.1,
    starts.pstate.2.2, starts.pc, address, starts.off.1, starts.off.2.1, starts.off.2.2, ?_⟩
  rintro (rfl | rfl) <;> exact starts.pc

/-! What a Cold and a Warm reset do (R600 to R603) -/

/-- The counters of the Activity Monitors. -/
theorem State.coldReset_counter (s : State) : ∀ r ∈ [SysReg.amevcntr00_el0, .amevcntr01_el0,
    .amevcntr02_el0, .amevcntr03_el0, .amevcntr10_el0, .amevcntr11_el0, .amevcntr12_el0],
    s.coldReset.get r = 0 := by
  intro r hr
  have lost : ResetKind.cold.keeps r = false := by
    unfold ResetKind.keeps
    cases r.info.group <;> rfl
  rw [State.coldReset, s.resetTo_get_stated lost]
  fin_cases hr <;> rfl

/-- What every reset does to the monitor, the sleep, the caches and the data they alone held. -/
theorem State.resetTo_empties (s : State) (k : ResetKind) : (s.resetTo k).monitor = .opened ∧
    (s.resetTo k).sleep.lowPower = .running ∧ (s.resetTo k).power = .on ∧
    (s.resetTo k).cache = s.cache.invalidated ∧
    (s.resetTo k).mem = discardDirty s.mem (s.cache.l1d ++ s.cache.l2) :=
  ⟨rfl, rfl, rfl, rfl, rfl⟩

/-- A Warm reset keeps the trace but maybe its last elements. -/
theorem State.traceAfter_warm (s : State) :
    ∃ n, s.traceAfter .warm = { s.trace with fifo := s.trace.fifo.take n } :=
  ⟨s.trace.fifo.length - s.drawNat .trace 0 % (s.trace.fifo.length + 1), if_pos rfl⟩

/-- A Warm reset keeps the OS Lock. -/
theorem State.resetTo_osLock (s : State) : (s.resetTo .warm).osLock = s.osLock := by
  simp only [State.resetTo, reduceCtorEq, if_false]

/-- Settles O51, from the registers after a reset and what it empties. -/
theorem coldAndWarmReset : Obligations.ColdAndWarmReset := by
  intro s
  refine ⟨⟨?_, ?_, ?_, ?_, ?_, s.coldReset_counter⟩,
    ⟨?_, ?_, ?_, ?_, ?_, ?_, fun r hr => s.resetTo_get_kept (keeps_warm hr)⟩, ?_⟩
  · rfl
  · rfl
  · rfl
  · exact s.resetTo_get_stated rfl
  · rw [State.coldReset, s.resetTo_get_stated rfl]
    exact bit_withBit _ 0 false (by decide)
  · exact s.resetTo_osLock
  · exact s.resetTo_ras
  · exact Bool.true_and _
  · rfl
  · exact s.traceAfter_warm
  · rw [State.warmReset, s.resetTo_get_stated rfl]
    exact bit_withBit _ 0 false (by decide)
  · rintro t (rfl | rfl)
    · exact s.resetTo_empties .cold
    · exact s.resetTo_empties .warm

end Sys2Proof.Machine
end

section
/-! Proof of the statement about RAS errors and powerdown (R482 to R494). -/

namespace Sys2Proof.Machine

/-! Registers that a detected error leaves -/

/-- A register holds the same, and is seen the same. -/
structure SameReg (q : SysReg) (s t : State) : Prop where
  ctl : t.ctl q = s.ctl q
  get : t.get q = s.get q

theorem SameReg.refl (q : SysReg) (s : State) : SameReg q s s := ⟨rfl, rfl⟩

theorem SameReg.trans {q : SysReg} {s t u : State} (h : SameReg q s t) (g : SameReg q t u) :
    SameReg q s u := ⟨g.ctl.trans h.ctl, g.get.trans h.get⟩

theorem SameReg.putByUnit {q r : SysReg} (h : q ≠ r) (s : State) (f : Word → Word) :
    SameReg q s (s.putByUnit r f) :=
  ⟨s.ctl_putByUnit_of_ne f h, (s.get_putByUnit r q f).trans (if_neg h)⟩

theorem SameReg.put {q r : SysReg} (h : q ≠ r) (s : State) (v : Word) : SameReg q s (s.put r v) :=
  ⟨s.ctl_put_of_ne v h, (s.get_put r q v).trans (if_neg h)⟩

/-- A PMU counter that comes further. -/
theorem SameReg.bumpPmu {q r : SysReg} (h : q ≠ r) (ho : q ≠ .pmovsset_el0) (s : State) (n : Nat) :
    SameReg q s (s.bumpPmu r n) := by
  unfold State.bumpPmu
  dsimp only
  split
  · exact (SameReg.putByUnit h s _).trans (.putByUnit ho _ _)
  · exact .putByUnit h s _

/-- The event MEMORY_ERROR changes PMU counters and their overflow bits alone. -/
theorem State.countMemoryError_sameReg (s : State) {q : SysReg} (h : counted q = false ∨
    q = .erxstatus_el1) : SameReg q s s.countMemoryError := by
  have other : ∀ r, q = r → (counted r = false ∨ r = .erxstatus_el1) := fun r e => e ▸ h
  have overflow : q ≠ .pmovsset_el0 := fun e => absurd (other _ e) (by decide)
  have counter : ∀ p ∈ (pmevcntrs.zip pmevtypers).zipIdx,
      ¬ (counted p.1.1 = false ∨ p.1.1 = .erxstatus_el1) := by decide
  have fold (l : List ((SysReg × SysReg) × Nat))
      (hl : ∀ p ∈ l, ¬ (counted p.1.1 = false ∨ p.1.1 = .erxstatus_el1)) (t : State) :
      SameReg q t (l.foldl (fun t p =>
        if s.pmuCounts p.2 && field (s.ctl p.1.2) 0 16 == memoryError then t.bumpPmu p.1.1 p.2
        else t) t) := by
    induction l generalizing t with
    | nil => exact .refl q t
    | cons p l ih =>
      refine SameReg.trans ?_ (ih (fun p hp => hl p (List.mem_cons_of_mem _ hp)) _)
      dsimp only
      split
      · exact .bumpPmu (fun e => hl p List.mem_cons_self (other _ e)) overflow t _
      · exact .refl q t
  unfold State.countMemoryError
  dsimp only
  split
  · exact (fold _ counter s).trans ⟨rfl, rfl⟩
  · exact fold _ counter s

/-! What a detected error raises (R482 to R486) -/

/-- The outputs after a reported error: those before, and those that the control register enables,
which the record does not change. -/
theorem State.reportError_ras (s : State) (k : ErrorKind) :
    ∃ t, SameReg .erxctlr_el1 s t ∧ SameReg .erxctlr_el1 s (s.reportError k) ∧
      (s.reportError k).ras = { s.ras with
        faultIrq := s.ras.faultIrq || t.raisesFault k
        errIrq := s.ras.errIrq || t.raisesRecovery k } := by
  have status := SameReg.put (q := .erxctlr_el1) (r := .erxstatus_el1) (by decide) s
    (s.get .erxstatus_el1 ||| errStatusBits k)
  unfold State.reportError
  dsimp only
  split
  · have all := status.trans (.putByUnit (r := .erxmisc0_el1) (by decide) _ fun v =>
      countCorrected v (s.drawBool .ramError 1))
    exact ⟨_, all, all.trans ⟨rfl, rfl⟩, rfl⟩
  · have all := (status.trans (.putByUnit (r := .erxaddr_el1) (by decide) _ fun _ =>
      s.drawWord .ramError 2)).trans (.putByUnit (r := .erxmisc1_el1) (by decide) _ fun _ =>
        s.drawWord .ramError 3 &&& ~~~0x808000000000#64)
    exact ⟨_, all, all.trans ⟨rfl, rfl⟩, rfl⟩

/-- The same of an error that is detected where errors are reported. -/
theorem State.recordError_ras {s : State} (h : s.reportsErrors = true) (k : ErrorKind) :
    ∃ t : State, t.ctl .erxctlr_el1 = s.ctl .erxctlr_el1 ∧ (s.recordError k).ras = { s.ras with
      faultIrq := s.ras.faultIrq || t.raisesFault k
      errIrq := s.ras.errIrq || t.raisesRecovery k } := by
  obtain ⟨t, same, -, hras⟩ := s.countMemoryError.reportError_ras k
  have counted := s.countMemoryError_sameReg (q := .erxctlr_el1) (.inl rfl)
  refine ⟨t, (counted.trans same).ctl, ?_⟩
  rw [State.recordError, if_pos h, hras, s.countMemoryError_ras]

/-- Where errors are not reported a detected one raises nothing. -/
theorem State.recordError_of_off {s : State} (h : s.reportsErrors = false) (k : ErrorKind) :
    s.recordError k = s.countMemoryError := if_neg (by simp [h])

/-- A deferred or uncorrected error with `FI` set, or a corrected one with `CFI` set, raises the
fault handling output. -/
theorem State.recordError_fault {s : State} (hr : s.reportsErrors = true) {k : ErrorKind}
    (h : (k ≠ .corrected ∧ bit (s.ctl .erxctlr_el1) 3 = true) ∨
      (k = .corrected ∧ bit (s.ctl .erxctlr_el1) 8 = true)) :
    (s.recordError k).ras.faultIrq = true := by
  obtain ⟨t, ht, hras⟩ := State.recordError_ras hr k
  have raises : t.raisesFault k = true := by
    rcases h with ⟨hk, h⟩ | ⟨rfl, h⟩ <;> simp [State.raisesFault, *]
  rw [hras, raises]
  exact Bool.or_true _

/-- An uncorrected error that is not deferred raises the error recovery output with `UI` set. -/
theorem State.recordError_recovery {s : State} (hr : s.reportsErrors = true) {k : ErrorKind}
    (hk : k = .uncorrected ∨ k = .uncontainable) (h : bit (s.ctl .erxctlr_el1) 2 = true) :
    (s.recordError k).ras.errIrq = true := by
  obtain ⟨t, ht, hras⟩ := State.recordError_ras hr k
  have raises : t.raisesRecovery k = true := by
    rcases hk with rfl | rfl <;> simp [State.raisesRecovery, ht, h]
  rw [hras, raises]
  exact Bool.or_true _

/-- The control register of the record stays. -/
theorem State.recordError_sameReg (s : State) (k : ErrorKind) :
    SameReg .erxctlr_el1 s (s.recordError k) := by
  have counted := s.countMemoryError_sameReg (q := .erxctlr_el1) (.inl rfl)
  unfold State.recordError
  dsimp only
  split
  · obtain ⟨-, -, same, -⟩ := s.countMemoryError.reportError_ras k
    exact counted.trans same
  · exact counted

/-- The status of an error that is reported is valid (R495). -/
theorem State.recordError_valid {s : State} (h : s.reportsErrors = true) (k : ErrorKind) :
    bit ((s.recordError k).get .erxstatus_el1) 30 = true := by
  have status (t : State) : (t.reportError k).get .erxstatus_el1 =
      t.get .erxstatus_el1 ||| errStatusBits k := by
    have record (u : State) (r : RasUnit) : State.get { u with ras := r } .erxstatus_el1 =
      u.get .erxstatus_el1 := rfl
    unfold State.reportError
    dsimp only
    rw [record]
    split <;> simp [State.get_putByUnit]
  have valid : bit (errStatusBits k) 30 = true := by cases k <;> decide
  rw [State.recordError, if_pos h, status]
  unfold bit at valid ⊢
  rw [BitVec.getLsbD_or, valid, Bool.or_true]

/-- A deferred or uncorrected error with both outputs disabled, or one that is not reported, raises
none. -/
theorem State.recordError_quiet {s : State} {k : ErrorKind} (hk : k ≠ .corrected)
    (h : s.reportsErrors = false ∨
      (bit (s.ctl .erxctlr_el1) 2 = false ∧ bit (s.ctl .erxctlr_el1) 3 = false)) :
    (s.recordError k).ras = s.ras := by
  cases hr : s.reportsErrors with
  | false => rw [State.recordError_of_off hr, s.countMemoryError_ras]
  | true =>
    obtain ⟨h2, h3⟩ := h.resolve_left (by simp [hr])
    obtain ⟨t, ht, hras⟩ := State.recordError_ras hr k
    rw [hras]
    simp [State.raisesFault, State.raisesRecovery, ht, hk, h2, h3]

/-! Errors that evictions meet (R487, R488) -/

/-- An error that an eviction has met poisons its block, or pends an SError. -/
theorem State.meetError_reports (s : State) (b : Nat) :
    (b ∈ (s.meetError b).poison ∧ b ∉ (s.meetError b).cache.bad) ∨
      (s.meetError b).irq.serror.isSome = true := by
  unfold State.meetError
  split
  · exact .inl ⟨List.mem_cons_self, fun h => by simpa using (List.mem_filter.1 h).2⟩
  · exact .inr rfl

/-- The beginning of a step reports the error that one eviction has met. -/
theorem State.tick_reports {s : State} {b : Nat} (h : s.cache.met = [b]) :
    (b ∈ s.tick.poison ∧ b ∉ s.tick.cache.bad) ∨ s.tick.irq.serror.isSome = true := by
  have counted : s.count.cache.met = [b] := by
    rw [s.count_ticks.eq]
    exact h
  have met : s.count.meetEvicted =
      State.meetError { s.count with cache := { s.count.cache with met := [] } } b := by
    rw [State.meetEvicted, counted]
    rfl
  have later := s.count.meetEvicted.fireInjection_ticks.trans (.drawn _ (s.draws + 1))
  change Ticks _ s.tick at later
  have reports := State.meetError_reports
    { s.count with cache := { s.count.cache with met := [] } } b
  rw [← met] at reports
  rcases reports with ⟨hp, hb⟩ | hi
  · rw [later.eq]
    exact .inl ⟨hp, hb⟩
  · exact .inr ((congrArg Option.isSome (later.held hi)).trans hi)

/-! Powerdown (R492 to R494) -/

/-- The errors that the clean of a powerdown meets, one block after another. -/
theorem State.cleanDetects_of {p : State → Prop} {s : State} (h0 : p s)
    (hs : ∀ t b, b ∈ s.cache.bad → p t →
      p (t.recordError (if s.deferred.contains b then .deferred else .uncorrected))) :
    p s.cleanDetects := by
  have fold (l : List Nat) (hl : l ⊆ s.cache.bad) (t : State) (ht : p t) : p (l.foldl (fun t b =>
      t.recordError (if s.deferred.contains b then .deferred else .uncorrected)) t) := by
    induction l generalizing t with
    | nil => exact ht
    | cons b l ih =>
      obtain ⟨hb, hl⟩ := List.cons_subset.1 hl
      exact ih hl _ (hs t b hb ht)
  exact fold _ (List.Subset.refl _) s h0

/-- The clean changes the record, the counters and the trace alone. -/
theorem State.cleanDetects_ticks (s : State) : Ticks s s.cleanDetects :=
  State.cleanDetects_of (p := Ticks s) (.refl s) fun t _ _ h => h.trans (t.recordError_ticks _)

/-- A clean that meets no error, or whose errors raise nothing. -/
theorem State.cleanDetects_quiet {s : State} (h : s.cache.bad = [] ∨ s.reportsErrors = false ∨
    (bit (s.ctl .erxctlr_el1) 2 = false ∧ bit (s.ctl .erxctlr_el1) 3 = false)) :
    s.cleanDetects.ras = s.ras := by
  refine (State.cleanDetects_of (p := fun t => t.ras = s.ras ∧ SameReg .erxctlr_el1 s t)
    ⟨rfl, .refl _ s⟩ fun t b hb ht => ?_).1
  obtain ⟨hras, same⟩ := ht
  have quiet := h.resolve_left (List.ne_nil_of_mem hb)
  rw [← same.ctl, State.reportsErrors, ← same.ctl] at quiet
  refine ⟨(State.recordError_quiet ?_ quiet).trans hras, same.trans (t.recordError_sameReg _)⟩
  split <;> decide

/-- A clean that meets an error it does not defer raises the error recovery output where that is
enabled. -/
theorem State.cleanDetects_raises {s : State} {b : Nat} (hb : b ∈ s.cache.bad)
    (hd : b ∉ s.deferred) (hr : s.reportsErrors = true) (h2 : bit (s.ctl .erxctlr_el1) 2 = true) :
    s.cleanDetects.ras.errIrq = true := by
  have fold (l : List Nat) (t : State) (ht : SameReg .erxctlr_el1 s t)
      (h : b ∈ l ∨ t.ras.errIrq = true) :
      (l.foldl (fun t b => t.recordError (if s.deferred.contains b then .deferred
        else .uncorrected)) t).ras.errIrq = true := by
    induction l generalizing t with
    | nil => exact h.resolve_left (by simp)
    | cons a l ih =>
      refine ih _ (ht.trans (t.recordError_sameReg _)) ?_
      rcases h with h | h
      · rcases List.mem_cons.1 h with rfl | h
        · refine .inr ?_
          have reports : t.reportsErrors = true := by rw [State.reportsErrors, ht.ctl]; exact hr
          dsimp only
          rw [if_neg (by simp [hd])]
          exact State.recordError_recovery reports (.inl rfl) (ht.ctl ▸ h2)
        · exact .inl h
      · exact .inr ((t.recordError_ticks _).recovery h)
  exact fold _ s (.refl _ s) (.inl hb)

/-- A core off after its caches have been cleaned. -/
structure PoweredDown (s t : State) (mode : PowerMode) : Prop where
  power : t.power = mode
  mem : s.cache.bad = [] → t.mem = s.mem
  empty : t.cache.l1d = [] ∧ t.cache.l2 = []

/-- What a powerdown request does to a core that is ready for it. -/
theorem State.ppuRequest_of_ready {s : State} {mode : PowerMode}
    (hm : mode = .off ∨ mode = .offEmulated) (hp : s.power = .on)
    (hr : s.readyForPowerdown = true) : ∃ t, PoweredDown s t mode ∧ s.ppuRequest mode =
      if s.rasActive then .next s else if s.cleanDetects.rasActive then .next s.cleanDetects
        else .next t := by
  have clean (h : s.cache.bad = []) : s.cleanCaches.mem = s.mem := by
    rw [State.cleanCaches, h]
    rfl
  have run (off : State → State) : s.powerDown off = if s.rasActive then .next s
      else if s.cleanDetects.rasActive then .next s.cleanDetects else .next (off s) :=
    if_neg (by simp [hr])
  rcases hm with rfl | rfl
  · refine ⟨s.powerOff, ⟨rfl, clean, rfl, rfl⟩, ?_⟩
    rw [← run]
    unfold State.ppuRequest
    rw [hp]
  · refine ⟨s.emulateOff, ⟨rfl, clean, rfl, rfl⟩, ?_⟩
    rw [← run]
    unfold State.ppuRequest
    rw [hp]

/-- It is denied while an output is asserted; it is carried out where the clean raises none; an
error that raises the error recovery output stops it. -/
theorem State.ppuRequest_powerdown {s : State} {mode : PowerMode}
    (hm : mode = .off ∨ mode = .offEmulated) (hp : s.power = .on)
    (hr : s.readyForPowerdown = true) :
    (s.rasActive = true → s.ppuRequest mode = .next s) ∧
      (s.rasActive = false → s.cleanDetects.ras = s.ras →
        ∃ t, s.ppuRequest mode = .next t ∧ PoweredDown s t mode) ∧
      (s.rasActive = false → s.cleanDetects.ras.errIrq = true →
        s.ppuRequest mode = .next s.cleanDetects) := by
  obtain ⟨t, down, hrun⟩ := State.ppuRequest_of_ready hm hp hr
  rw [hrun]
  refine ⟨fun h => if_pos h, fun h hq => ⟨t, ?_, down⟩, fun h hq => ?_⟩
  · have quiet : s.cleanDetects.rasActive = s.rasActive := by
      rw [State.rasActive, hq]
      rfl
    rw [quiet, h]
    rfl
  · have raised : s.cleanDetects.rasActive = true := by rw [State.rasActive, hq, Bool.or_true]
    rw [h, raised]
    rfl

/-- A write of `ERR1STATUS` that clears `V` deasserts both outputs. -/
theorem State.writeErrStatus_clears (s : State) {w : Word} (hw : bit w 30 = true) :
    (s.writeErrStatus w).ras.faultIrq = false ∧ (s.writeErrStatus w).ras.errIrq = false := by
  have cleared : ¬ bit (s.get .erxstatus_el1 &&& ~~~w) 30 = true := by
    simp [bit_and_not _ _ _ hw]
  rw [State.writeErrStatus]
  dsimp only
  rw [if_neg cleared]
  exact ⟨rfl, rfl⟩

/-- Settles O49, from what a detected error raises, `State.tick_reports`, `step_upholds` and
`State.ppuRequest_powerdown`. -/
theorem rasInterruptsAndPowerdown : Obligations.RasInterruptsAndPowerdown := by
  intro s
  refine ⟨fun hr => ⟨fun k hk h => State.recordError_fault hr (.inl ⟨hk, h⟩),
      fun h => State.recordError_fault hr (.inr ⟨rfl, h⟩),
      fun k hk h => State.recordError_recovery hr hk h, fun k => State.recordError_valid hr k⟩,
    fun hr k => ?_, fun k => ⟨(s.recordError_ticks k).fault, (s.recordError_ticks k).recovery⟩,
    fun b hb => State.tick_reports hb, fun t hk h => (step_upholds s t h).outputs hk,
    fun w hw => s.writeErrStatus_clears hw, ?_⟩
  · rw [State.recordError_of_off hr]
    exact ⟨s.countMemoryError_ras, (s.countMemoryError_sameReg (.inr rfl)).get⟩
  · intro mode rest hm hi hp hl hw
    have handled : step s = State.ppuRequest { s.tick with inbox := rest } mode := step_of_event hi
    have ready : State.readyForPowerdown { s.tick with inbox := rest } = true := by
      change (s.tick.sleep.lowPower == .wfi && s.tick.sleep.wakeMasked) = true
      rw [State.tick_sleep, hl, hw]
      rfl
    obtain ⟨denied, off, stopped⟩ := State.ppuRequest_powerdown (s := { s.tick with inbox := rest })
      hm (s.tick_power.trans hp) ready
    rw [handled]
    refine ⟨fun h => denied ?_, fun h1 h2 => ⟨fun h => ?_, fun hr h2' hb => ?_⟩⟩
    · exact Bool.or_eq_true_iff.2 h
    · obtain ⟨t, hrun, down⟩ := off (Bool.or_eq_false_iff.2 ⟨h1, h2⟩) (State.cleanDetects_quiet h)
      exact ⟨t, hrun, down.power, fun hbad => (down.mem hbad).trans s.tick_mem, down.empty⟩
    · by_cases hall : ∀ b ∈ s.tick.cache.bad, b ∈ s.tick.deferred
      · exact .inl hall
      · obtain ⟨b, hb⟩ := not_forall.1 hall
        obtain ⟨hbad, hd⟩ := Classical.not_imp.1 hb
        have raised := State.cleanDetects_raises (s := { s.tick with inbox := rest }) hbad hd hr h2'
        have hrun := stopped (Bool.or_eq_false_iff.2 ⟨h1, h2⟩) raised
        have ticks := State.cleanDetects_ticks { s.tick with inbox := rest }
        refine .inr ⟨_, hrun, ?_, raised, ?_⟩
        · rw [ticks.eq]
          exact s.tick_power.trans hp
        · rw [ticks.eq]
          exact ⟨s.tick_sleep, s.tick_pc, s.tick_x, s.tick_mem⟩

end Sys2Proof.Machine
end

section
/-! Proof of the statement about the outcomes of pointer authentication (R44, R356). -/

namespace Sys2Proof.Machine

/-! Bits of pointers -/

/-- An address two of whose bits above 47 differ is not canonical. -/
theorem nonCanonical_of_bits {va : Word} {i j : Nat} (hi : 47 ≤ i ∧ i < 64) (hj : 47 ≤ j ∧ j < 64)
    (h : bit va i ≠ bit va j) : nonCanonical va = true := by
  rw [nonCanonical, bne_iff_ne]
  intro e
  have sign (k : Nat) (hk : 47 ≤ k ∧ k < 64) : bit va k = va.getLsbD 47 := by
    have low : (va.setWidth 48).msb = va.getLsbD 47 := by
      rw [BitVec.msb_eq_getLsbD_last, BitVec.getLsbD_setWidth]
      rfl
    unfold bit
    rw [e, BitVec.getLsbD_signExtend, BitVec.getLsbD_setWidth, low, ← e]
    rcases Nat.eq_or_lt_of_le hk.1 with rfl | hlt
    · rfl
    · rw [if_neg (by omega), decide_eq_true hk.2, Bool.true_and]
  exact h ((sign i hi).trans (sign j hj).symm)

/-- An address of the physical address space is canonical. -/
theorem nonCanonical_low {va : Word} (h : va.toNat < 2 ^ 40) : nonCanonical va = false := by
  have low : (va.setWidth 48).msb = false := by
    rw [BitVec.msb_eq_decide, BitVec.toNat_setWidth, decide_eq_false_iff_not]
    omega
  rw [nonCanonical, bne_eq_false_iff_eq, BitVec.signExtend_eq_setWidth_of_msb_false low]
  refine BitVec.eq_of_toNat_eq ?_
  rw [BitVec.toNat_setWidth, BitVec.toNat_setWidth]
  omega

/-- The bits of the canonical pointer: those of the address, and bit 55 above them. -/
theorem bit_canonicalPointer (p : Word) {i : Nat} (hi : i < 64) :
    bit (canonicalPointer p) i = if i < 48 then bit p i else bit p 55 := by
  have upper : ∀ j : Fin 64, (0xFFFF000000000000 : Word).getLsbD j = decide (¬ j.val < 48) := by
    decide
  have lower : ∀ j : Fin 64, (0x0000FFFFFFFFFFFF : Word).getLsbD j = decide (j.val < 48) := by
    decide
  have hu : (0xFFFF000000000000 : Word).getLsbD i = _ := upper ⟨i, hi⟩
  have hl : (0x0000FFFFFFFFFFFF : Word).getLsbD i = _ := lower ⟨i, hi⟩
  unfold canonicalPointer
  cases h55 : bit p 55 with
  | true =>
    unfold bit at h55 ⊢
    rw [if_pos rfl, BitVec.getLsbD_or, hu]
    split <;> simp [*]
  | false =>
    unfold bit at h55 ⊢
    rw [if_neg (by simp), BitVec.getLsbD_and, hl]
    split <;> simp [*]

/-- Two bits of a word replaced by an error code. -/
theorem bit_errorCode (w : Word) (keyB : Bool) {code i : Nat} (hc : code + 1 < 64) (hi : i < 64) :
    bit ((w &&& ~~~(3#64 <<< code)) ||| ((if keyB then 2#64 else 1#64) <<< code)) i =
      if i = code then !keyB else if i = code + 1 then keyB else bit w i := by
  have three : ∀ j : Fin 64, (3#64).getLsbD j = decide (j.val < 2) := by decide
  have key : ∀ (b : Bool) (j : Fin 64), (if b then 2#64 else 1#64).getLsbD j =
      if j.val = 0 then !b else if j.val = 1 then b else false := by decide
  have h3 := three ⟨i - code, by omega⟩
  have hk := key keyB ⟨i - code, by omega⟩
  unfold bit
  rw [BitVec.getLsbD_or, BitVec.getLsbD_and, BitVec.getLsbD_not, BitVec.getLsbD_shiftLeft,
    BitVec.getLsbD_shiftLeft, h3, hk]
  simp only [hi, decide_true, Bool.true_and]
  rcases Nat.lt_trichotomy i code with h | rfl | h
  · simp [h, Nat.ne_of_lt h, show i ≠ code + 1 by omega]
  · simp
  · rcases Nat.eq_or_lt_of_le h with rfl | h'
    · simp
    · simp [show ¬ i < code by omega, show i ≠ code by omega, show i ≠ code + 1 by omega,
        show ¬ i - code < 2 by omega, show i - code ≠ 0 by omega, show i - code ≠ 1 by omega]

/-- A tag that is set aside leaves the bits below it. -/
theorem bit_tagAside (va : Word) {i : Nat} (hi : i < 56) :
    bit ((va.setWidth 56).signExtend 64) i = bit va i := by
  unfold bit
  rw [BitVec.getLsbD_signExtend, if_pos hi, BitVec.getLsbD_setWidth]
  simp [hi, Nat.lt_trans hi (by decide : 56 < 64)]

/-! Which addresses a fetch sets a tag aside of (R44) -/

/-- The level whose registers control translation, and whether its regime has two ranges. -/
theorem State.regime_ranges (s : State) : (s.regimeEl = 1 ∧ s.regime.hasAsid = true) ∨
    s.regimeEl = 2 ∨ (s.regimeEl = 3 ∧ s.regime.hasAsid = false) := by
  unfold State.regimeEl State.regime
  by_cases hh : s.hostEl0 = true
  · exact .inr (.inl (if_pos hh))
  · rw [if_neg hh]
    match hel : s.el with
    | 0 => left; cases s.nsBelow <;> simp [hh, Regime.hasAsid]
    | 1 => left; cases s.nsBelow <;> simp [hh, Regime.hasAsid]
    | 2 => exact .inr (.inl rfl)
    | 3 => exact .inr (.inr ⟨rfl, rfl⟩)

/-- A value of a register that may be seen in one state may be seen in another. -/
def SeenIn (u s : State) (r : SysReg) : Prop := u.get r = s.get r ∧ ∀ w ∈ u.olds r, w ∈ s.olds r

theorem SeenIn.ctl_mem {u s : State} {r : SysReg} (h : SeenIn u s r) :
    u.ctl r ∈ s.get r :: s.olds r := by
  have seen := u.ctl_mem r
  rw [h.1] at seen
  rcases List.mem_cons.1 seen with h1 | h1
  · exact h1 ▸ List.mem_cons_self
  · exact List.mem_cons_of_mem _ (h.2 _ h1)

/-- A register's values that may be seen in one state, of which one has top byte ignore on, and not
for data alone, are among those of the other. -/
theorem SeenIn.ignores {u s : State} {r : SysReg} (h : SeenIn u s r) {i j : Nat}
    (hi : bit (u.ctl r) i = true) (hj : bit (u.ctl r) j = false) :
    ((s.get r :: s.olds r).any fun w => bit w i && !bit w j) = true :=
  List.any_eq_true.2 ⟨u.ctl r, h.ctl_mem, by simp [hi, hj]⟩

/-- The same of the control bits of the upper or of the lower range. -/
theorem SeenIn.ignoresIn {u s : State} {r : SysReg} (h : SeenIn u s r) {upper : Bool}
    (hi : bit (u.ctl r) (if upper then 38 else 37) = true)
    (hj : bit (u.ctl r) (if upper then 52 else 51) = false) :
    (if upper then (s.get r :: s.olds r).any fun w => bit w 38 && !bit w 52
      else (s.get r :: s.olds r).any fun w => bit w 37 && !bit w 51) = true := by
  cases upper with
  | true => exact h.ignores hi hj
  | false => exact h.ignores hi hj

/-- Where a fetch ignores a tag, in a state with the same translation control registers, it is among
those that may. -/
theorem State.fetchMayIgnoreTag_of {u s : State} {va : Word}
    (h : ∀ r ∈ [SysReg.tcr_el1, .tcr_el2, .tcr_el3], SeenIn u s r)
    (ht : u.tagIgnored va .fetch = true) : s.fetchMayIgnoreTag va = true := by
  have el1 : SeenIn u s .tcr_el1 := h _ (by decide)
  have el2 : SeenIn u s .tcr_el2 := h _ (by decide)
  have el3 : SeenIn u s .tcr_el3 := h _ (by decide)
  unfold State.tagIgnored State.tcr at ht
  unfold State.fetchMayIgnoreTag
  simp only [Bool.and_eq_true, Bool.not_eq_true', beq_self_eq_true, Bool.true_and] at ht
  obtain ⟨h1, h2⟩ := ht
  simp only [Bool.or_eq_true]
  rcases u.regime_ranges with ⟨hel, has⟩ | hel | ⟨hel, has⟩
  · rw [hel, has] at h1 h2
    exact .inl (.inl (.inl (el1.ignoresIn h1 h2)))
  · rw [hel] at h1 h2
    cases has : u.regime.hasAsid with
    | true =>
      rw [has] at h1 h2
      exact .inl (.inl (.inr (el2.ignoresIn h1 h2)))
    | false =>
      rw [has] at h1 h2
      exact .inl (.inr (el2.ignores h1 h2))
  · rw [hel, has] at h1 h2
    exact .inr (el3.ignores h1 h2)

/-! A pointer whose authentication failed (R356) -/

/-- It has an error code above its address, and is else the canonical pointer. -/
theorem State.failedPointer_bits (s : State) (p : Word) (keyB : Bool) :
    ∃ code, (code = if s.fetchMayIgnoreTag p then 53 else 61) ∧
      ∀ i < 64, bit (s.failedPointer p keyB) i = if i = code then !keyB
        else if i = code + 1 then keyB else if i < 48 then bit p i else bit p 55 := by
  refine ⟨_, rfl, fun i hi => ?_⟩
  have room : (if s.fetchMayIgnoreTag p then 53 else 61) + 1 < 64 := by split <;> decide
  rw [← bit_canonicalPointer p hi]
  exact bit_errorCode (canonicalPointer p) keyB room hi

/-- No fetch makes it canonical, in any state with the same translation control registers. -/
theorem State.failedPointer_untagged {s u : State} (p : Word) (keyB : Bool)
    (h : ∀ r ∈ [SysReg.tcr_el1, .tcr_el2, .tcr_el3], SeenIn u s r) :
    nonCanonical (s.failedPointer p keyB) = true ∧
      nonCanonical (u.untagged (s.failedPointer p keyB) .fetch) = true := by
  obtain ⟨code, hcode, bits⟩ := s.failedPointer_bits p keyB
  generalize s.failedPointer p keyB = q at bits ⊢
  have place : code = 53 ∨ code = 61 := by rw [hcode]; split <;> simp
  have first : bit q code = !keyB := by rw [bits _ (by omega), if_pos rfl]
  have second : bit q (code + 1) = keyB := by
    rw [bits _ (by omega), if_neg (by omega), if_pos rfl]
  have differ : bit q code ≠ bit q (code + 1) := by
    rw [first, second]
    cases keyB <;> decide
  have plain : nonCanonical q = true := nonCanonical_of_bits (by omega) (by omega) differ
  refine ⟨plain, ?_⟩
  unfold State.untagged
  split
  next ht =>
    have range : bit q 55 = bit p 55 := by
      rw [bits 55 (by decide), if_neg (by omega), if_neg (by omega), if_neg (by decide)]
    have may : s.fetchMayIgnoreTag p = true := by
      have mayq := State.fetchMayIgnoreTag_of h ht
      unfold State.fetchMayIgnoreTag at mayq ⊢
      rwa [range] at mayq
    rw [if_pos may] at hcode
    subst hcode
    refine nonCanonical_of_bits (i := 53) (j := 54) (by decide) (by decide) ?_
    rw [bit_tagAside q (by decide), bit_tagAside q (by decide)]
    exact differ
  next => exact plain

/-- A fetch from an address that is not canonical, its tag set aside, faults (R44). -/
theorem State.translate_nonCanonical {s : State} {va : Word}
    (h : nonCanonical (s.untagged va .fetch) = true) :
    ∃ f, s.translate va .fetch = .fault s f ∧ (f.kind = .translation ∨ f.kind = .addressSize) := by
  unfold State.translate State.translateFor
  split
  · refine ⟨_, if_pos (by simp [h]), ?_⟩
    split
    · exact .inl rfl
    · exact .inr rfl
  · have high : ¬ (s.untagged va .fetch).toNat < 2 ^ 40 := by
      intro low
      rw [nonCanonical_low low] at h
      cases h
    exact ⟨_, if_neg high, .inr rfl⟩

/-- Settles O27, from the bits of the canonical and of the failed pointer. -/
theorem authenticationOutcomes : Obligations.AuthenticationOutcomes := by
  intro s keyB p modifier
  refine ⟨fun h => if_pos (by simp [h]), fun he hp => ⟨canonicalPointer p, ?_, rfl, fun i hi => ?_,
    fun i h1 h2 => ?_⟩, fun he hp => ⟨fun hf => ?_, fun hf => ?_⟩⟩
  · simp [State.authI, he, hp]
  · rw [bit_canonicalPointer p (by omega), if_pos hi]
  · rw [bit_canonicalPointer p h2, if_neg (by omega)]
  · simp [State.authI, he, hp, hf]
  · obtain ⟨code, hcode, bits⟩ := s.failedPointer_bits p keyB
    have place : code = 53 ∨ code = 61 := by rw [hcode]; split <;> simp
    refine ⟨s.failedPointer p keyB, by simp [State.authI, he, hp, hf],
      (State.failedPointer_untagged (u := s) p keyB fun r _ => ⟨rfl, fun _ hw => hw⟩).1,
      fun i hi => ?_, fun u hu => ?_⟩
    · rw [bits i (by omega), if_neg (by omega), if_neg (by omega), if_pos hi]
    · have far := (State.failedPointer_untagged p keyB hu).2
      exact ⟨far, State.translate_nonCanonical far⟩

end Sys2Proof.Machine
end
